-- ==== Sys2Proof/Word.lean ====
section
/-!
DEFINITION. The word types of MSC-CORE (spec 00_scope.md R4, 20_memory.md R31): every multi-bit quantity is an unsigned
binary number, bit 0 least significant. Nothing is signed, stored as bytes or addressed.
-/

namespace Sys2Proof

/-- A number of timer counts, `CNT_W` = 16 bits: `cnt`, `cmp_shadow`, `cmp_active` (R4, R10). -/
abbrev Count := BitVec 16

/-- The microsecond operand of SETPW, `US_W` = 16 bits (R4, R51). -/
abbrev Micros := BitVec 16

/-- The hold timer, milliseconds, `ELAPSED_W` = 13 bits (R4, R17). -/
abbrev Elapsed := BitVec 13

/-- The sensor vector `sens[2:0]`, already polarity-corrected, 1 = detected (R22, R45). -/
abbrev SensorVector := BitVec 3

/-- An event word, `EV_W` = 20 bits (R4, R49). -/
abbrev EventWord := BitVec 20

end Sys2Proof
end

