-- ==== Sys2Proof/Machine/Fields.lean ====
section
/-!
DEFINITION. The fields of an event word (spec 30_encoding.md R49).
-/

namespace Sys2Proof

/-- The opcode field `op = ev[19:16]` (R49). -/
def opField (w : EventWord) : BitVec 4 := w.extractLsb' 16 4

/-- The operand field `arg = ev[15:0]` (R49). -/
def argField (w : EventWord) : BitVec 16 := w.extractLsb' 0 16

end Sys2Proof
end

