-- ==== Sys2Proof/Config.lean ====
section
/-!
DEFINITION. The configuration of one built MSC-CORE (spec 00_scope.md R3, R4; 93_implementation_defined.md U1): constants
that no event changes. The model has no free value: the spec leaves no value undefined.
-/

namespace Sys2Proof

/-- The compile-time configuration constants of R3, and the output polarity of U1. A model may take them as arguments
(R3, D2); the parametric machine of Machine/Instantiate.lean does, and `Config.params` is the set the spec fixes. -/
structure Params where
  /-- `CLK_HZ`: clock reference rate, hertz. -/
  clkHz : Nat
  /-- `PRESCALER`: clock divider between `CLK_HZ` and the timer tick. -/
  prescaler : Nat
  /-- `FRAME_HZ`: frame rate, hertz. -/
  frameHz : Nat
  /-- `MIN_US`: smallest pulse width, microseconds. -/
  minUs : Nat
  /-- `CENTER_US`: centre pulse width, microseconds. -/
  centerUs : Nat
  /-- `NEUTRAL_US`: the designated neutral pulse width; V4 makes it `CENTER_US` (90_conflicts.md C3). -/
  neutralUs : Nat
  /-- `MAX_US`: largest pulse width, microseconds. -/
  maxUs : Nat
  /-- `HOLD_MS`: the hold duration, milliseconds. -/
  holdMs : Nat
  /-- `CYCLE_MS`: the control-cycle period and the hold-timer increment, milliseconds. -/
  cycleMs : Nat
  /-- `POLARITY_INVERTED` (U1): complements `pwm` while `run = 1`; default false. -/
  polarityInverted : Bool
  deriving DecidableEq, Repr

namespace Config

/-- `CNT_W` (R4): the width of `cnt`, `cmp_shadow`, `cmp_active`. -/
abbrev cntW : Nat := 16
/-- `US_W` (R4): the width of the SETPW operand. -/
abbrev usW : Nat := 16
/-- `ELAPSED_W` (R4): the width of `elapsed`. -/
abbrev elapsedW : Nat := 13
/-- `EV_W` (R4): the width of an event word. -/
abbrev evW : Nat := 20

/-- The parameter set the spec fixes (the table of R3; polarity as U1's default). -/
def params : Params :=
  { clkHz := 16000000, prescaler := 8, frameHz := 50
    minUs := 1000, centerUs := 1500, neutralUs := 1500, maxUs := 2000
    holdMs := 5000, cycleMs := 50
    polarityInverted := false }

end Config
end Sys2Proof
end

