-- ==== Sys2Proof/Machine/Timebase.lean ====
section
/-!
DEFINITION. The arithmetic of the frame generator and the derived constants (spec 00_scope.md R5; 40_frame_generator.md
R60 to R63; 41_motion_controller.md R91; timing figures R74, R134). All of it is exact over the natural numbers, `/` is
floor division.
-/

namespace Sys2Proof.Params

/-- `TOP` (R5, R60): the last count of a frame. -/
def top (p : Params) : Nat := p.clkHz / (p.prescaler * p.frameHz) - 1

/-- `FRAME_TICKS` (R5): ticks in a frame. -/
def frameTicks (p : Params) : Nat := p.top + 1

/-- `conv(u) = (u × CLK_HZ) / (PRESCALER × 1,000,000)` (R61): microseconds to counts; the product first, one floor division,
no intermediate truncation. The factors stand in the order in which Lean's kernel evaluates them without unary recursion. -/
def conv (p : Params) (u : Nat) : Nat := (p.clkHz * u) / (1000000 * p.prescaler)

/-- `minCounts` (R5, R62). -/
def minCounts (p : Params) : Nat := p.conv p.minUs

/-- `neutralCounts` (R5). -/
def neutralCounts (p : Params) : Nat := p.conv p.neutralUs

/-- `maxCounts` (R5, R62). -/
def maxCounts (p : Params) : Nat := p.conv p.maxUs

/-- `clampc(c)` (R62): clamp a count to `[minCounts, maxCounts]`. -/
def clampc (p : Params) (c : Nat) : Nat :=
  if c < p.minCounts then p.minCounts
  else if c > p.maxCounts then p.maxCounts
  else c

/-- `ceil(a / b)` (R5, 00_scope.md section 4): the smallest `n` with `n * b ≥ a`, for `b ≥ 1`. -/
def ceilDiv (a b : Nat) : Nat := (a + b - 1) / b

/-- `HOLD_CYCLES` (R5, R91). -/
def holdCycles (p : Params) : Nat := ceilDiv p.holdMs p.cycleMs

/-- Rising edges of `clk` in one frame (R58): `(TOP + 1) × PRESCALER`. -/
def frameClocks (p : Params) : Nat := p.frameTicks * p.prescaler

/-- The ticks of a delay of `ms` milliseconds under the nominal schedule (R55 `SLEEP`, R105). -/
def ticksOfMs (p : Params) (ms : Nat) : Nat := p.clkHz * ms / (1000 * p.prescaler)

/-- The width of the prescaler phase, `ceil(log2(PRESCALER))` bits (R25): enough for 0 to `PRESCALER - 1`. -/
def preW (p : Params) : Nat := if p.prescaler ≤ 1 then 0 else Nat.log2 (p.prescaler - 1) + 1

/-- The nominal duration of `n` clock periods in picoseconds (R74, R134): information, read by no event rule. -/
def psOfClocks (p : Params) (n : Nat) : Nat := 1000000000000 * n / p.clkHz

/-- The nominal duration of `n` timer ticks in picoseconds (R74, R134): information, read by no event rule. -/
def psOfTicks (p : Params) (n : Nat) : Nat := p.psOfClocks (n * p.prescaler)

/-- The nominal duration of a hold in milliseconds (R132, R134): information, read by no event rule. -/
def nominalHoldMs (p : Params) : Nat := p.holdCycles * p.cycleMs

end Sys2Proof.Params
end

