-- ==== Sys2Proof/Syntax.lean ====
section
/-!
DEFINITION. The syntax of MSC-CORE's "instruction set" (spec 30_encoding.md R44, R50; opcode_table.json): the sensor
identities and the five events.
-/

namespace Sys2Proof

/-- A sensor identity, "one of {LEFT, CENTER, RIGHT}" (R44). There are three values only; the code `0b11` is no sensor. -/
inductive Sensor where
  | left
  | center
  | right
  deriving DecidableEq, Repr

/-- The five events, one constructor per row of spec/opcode_table.json (R50). Operands have the width of their field, so
every operand value is legal (R51, R52). -/
inductive Instr where
  /-- RESET, op `0x0` (R100). -/
  | reset
  /-- CONFIGURE, op `0x1` (R64). -/
  | configure
  /-- SETPW us, op `0x2` (R65): `us` in microseconds, any 16-bit value (R51). -/
  | setpw (us : Micros)
  /-- TICK, op `0x3` (R66). -/
  | tick
  /-- CYCLE sens, op `0x4` (R88): bit 2 LEFT, bit 1 CENTER, bit 0 RIGHT (R45, R52). -/
  | cycle (sens : SensorVector)
  deriving DecidableEq, Repr

end Sys2Proof
end

