-- ==== Sys2Proof/WellFormed.lean ====
section
/-!
DEFINITION. What is well formed: a parameter set (spec 00_scope.md R6, V1 to V9), an event word (30_encoding.md R53), an
instruction (R51, R52).
-/

namespace Sys2Proof

namespace Params

/-- V1. -/
abbrev V1 (p : Params) : Prop := 1 ≤ p.clkHz ∧ 1 ≤ p.prescaler ∧ p.frameHz = 50
/-- V2: so `TOP ≥ 0`. -/
abbrev V2 (p : Params) : Prop := 1 ≤ p.clkHz / (p.prescaler * p.frameHz)
/-- V3: "so `TOP` fits". -/
abbrev V3 (p : Params) : Prop := p.top < 2 ^ Config.cntW
/-- V4: the range of section 3, and `NEUTRAL_US = CENTER_US`. -/
abbrev V4 (p : Params) : Prop := p.minUs ≤ p.neutralUs ∧ p.neutralUs ≤ p.maxUs ∧ p.neutralUs = p.centerUs
/-- V5: the pulse ends inside its frame. -/
abbrev V5 (p : Params) : Prop := p.maxCounts ≤ p.top
/-- V6: every frame has a pulse. -/
abbrev V6 (p : Params) : Prop := 1 ≤ p.minCounts
/-- V7. -/
abbrev V7 (p : Params) : Prop := p.maxUs < 2 ^ Config.usW
/-- V8. -/
abbrev V8 (p : Params) : Prop := 1 ≤ p.holdMs ∧ 1 ≤ p.cycleMs
/-- V9. -/
abbrev V9 (p : Params) : Prop := p.holdMs - 1 + p.cycleMs < 2 ^ Config.elapsedW

/-- A parameter set is valid when all of V1 to V9 hold (R6); a machine is instantiated on no other. -/
abbrev Valid (p : Params) : Prop :=
  p.V1 ∧ p.V2 ∧ p.V3 ∧ p.V4 ∧ p.V5 ∧ p.V6 ∧ p.V7 ∧ p.V8 ∧ p.V9

end Params

/-- The opcode is one of the five of R50. -/
abbrev opListed (w : EventWord) : Prop := (opField w).toNat < 5

/-- RESET, CONFIGURE and TICK carry a zero operand (R50, R53). -/
abbrev plainOperandZero (w : EventWord) : Prop :=
  (opField w = 0 ∨ opField w = 1 ∨ opField w = 3) → argField w = 0

/-- CYCLE carries nothing in `arg[15:3]` (R52, R53). -/
abbrev cycleHighBitsZero (w : EventWord) : Prop :=
  opField w = 4 → (argField w).toNat < 8

/-- A legal event word: none of the three clauses of R53 makes it illegal. -/
abbrev LegalWord (w : EventWord) : Prop := opListed w ∧ plainOperandZero w ∧ cycleHighBitsZero w

/-- An instruction is well formed whatever its operand: "Every value is legal" (R51), "All eight values are legal" (R52).
The operands' types carry their widths, so there is nothing left to check. -/
def Instr.wellFormed : Instr → Bool
  | .reset => true
  | .configure => true
  | .setpw _ => true
  | .tick => true
  | .cycle _ => true

end Sys2Proof
end

