-- ==== Sys2Proof/Decode.lean ====
section
/-!
DEFINITION. The decoder and the encoder of event words (spec 30_encoding.md R49 to R53; opcode_table.json). Decoding is
total on every event word; an illegal word is rejected by the clause of R53 that makes it so.
-/

namespace Sys2Proof

/-- Why an event word spells no event: the three clauses of R53. -/
inductive IllegalWord where
  /-- `op` is `0x5` to `0xF`. -/
  | reservedOpcode (op : BitVec 4)
  /-- `op` is RESET, CONFIGURE or TICK and `arg ≠ 0`. -/
  | operandNotZero (op : BitVec 4)
  /-- `op` is CYCLE and `arg[15:3] ≠ 0`. -/
  | cycleHighBits
  deriving DecidableEq, Repr

/-- The decoder's verdict on an event word. -/
inductive Verdict where
  | event (i : Instr)
  | invalid (why : IllegalWord)
  deriving DecidableEq, Repr

/-- An event without operand: legal only with `arg = 0` (R50, R53). -/
def decodePlain (w : EventWord) (i : Instr) : Verdict :=
  if argField w = 0 then .event i else .invalid (.operandNotZero (opField w))

/-- CYCLE: `sens = arg[2:0]`, `arg[15:3]` must be zero (R50, R52). -/
def decodeCycle (w : EventWord) : Verdict :=
  if (argField w).extractLsb' 3 13 = 0 then .event (.cycle ((argField w).extractLsb' 0 3)) else .invalid .cycleHighBits

/-- The decoder (R49, R50, R53). -/
def decodeVerdict (w : EventWord) : Verdict :=
  match (opField w).toNat with
  | 0 => decodePlain w .reset
  | 1 => decodePlain w .configure
  | 2 => .event (.setpw (argField w))
  | 3 => decodePlain w .tick
  | 4 => decodeCycle w
  | _ => .invalid (.reservedOpcode (opField w))

/-- The event a word spells, if any. -/
def decode (w : EventWord) : Option Instr :=
  match decodeVerdict w with
  | .event i => some i
  | .invalid _ => none

/-- The opcode of an event (R50). -/
def opcode : Instr → BitVec 4
  | .reset => 0x0
  | .configure => 0x1
  | .setpw _ => 0x2
  | .tick => 0x3
  | .cycle _ => 0x4

/-- The operand of an event (R50, R51, R52): `arg[15:3]` of CYCLE is zero. -/
def operand : Instr → BitVec 16
  | .reset | .configure | .tick => 0
  | .setpw us => us
  | .cycle sens => sens.setWidth 16

/-- The event word `{op, arg}`, `op` on the more significant side (R49). -/
def eventWord (op : BitVec 4) (arg : BitVec 16) : EventWord := BitVec.ofNat 20 (op.toNat * 65536 + arg.toNat)

/-- The event word of an event (R49, R50). -/
def encode (i : Instr) : EventWord := eventWord (opcode i) (operand i)

/-- One row of the match and mask list of R50: `ev AND mask = match`. -/
structure OpcodeRow where
  pattern : EventWord
  mask : EventWord
  deriving DecidableEq, Repr

/-- Whether a word falls under a row (R50). -/
def OpcodeRow.covers (r : OpcodeRow) (w : EventWord) : Bool := w &&& r.mask == r.pattern

/-- The row of RESET (R50). -/
def rowReset : OpcodeRow := ⟨0x00000, 0xFFFFF⟩
/-- The row of CONFIGURE (R50). -/
def rowConfigure : OpcodeRow := ⟨0x10000, 0xFFFFF⟩
/-- The row of SETPW (R50). -/
def rowSetpw : OpcodeRow := ⟨0x20000, 0xF0000⟩
/-- The row of TICK (R50). -/
def rowTick : OpcodeRow := ⟨0x30000, 0xFFFFF⟩
/-- The row of CYCLE (R50). -/
def rowCycle : OpcodeRow := ⟨0x40000, 0xFFFF8⟩

/-- "Match and mask for a decoder" (R50), in the table's order. -/
def opcodeRows : List OpcodeRow := [rowReset, rowConfigure, rowSetpw, rowTick, rowCycle]

/-- The row an event's words fall under (R50). -/
def rowOf : Instr → OpcodeRow
  | .reset => rowReset
  | .configure => rowConfigure
  | .setpw _ => rowSetpw
  | .tick => rowTick
  | .cycle _ => rowCycle

/-- The event word that the low `nbits` bits of the number `w` spell, all bits above them zero; a number of more than
`EV_W` bits is no event word (R49: "All event words have this length"; log 7). -/
def tableWord (nbits w : Nat) : Option EventWord :=
  if w % 2 ^ nbits < 2 ^ Config.evW then some (BitVec.ofNat 20 (w % 2 ^ nbits)) else none

/-- The instruction the decoder reads from an instruction whose bits are `w`, numbered as spec/opcode_table.json numbers
them. -/
def decodeTableWord (nbits w : Nat) : Option Instr :=
  match tableWord nbits w with
  | some e => decode e
  | none => none

end Sys2Proof
end

