-- ==== Sys2Proof/Machine/State.lean ====
section
/-!
DEFINITION. The state of MSC-CORE (spec 10_state.md R10 to R18, R22 to R25; 30_encoding.md R56, R57), its reset value (R23),
and the reasons a step can stop (60_exceptions.md R110, 30_encoding.md R53).
-/

namespace Sys2Proof.Machine

/-- The Controller State `st`: READY or ACTIVE (R15, R46). -/
inductive Ctl where
  | ready
  | active
  deriving DecidableEq, Repr

/-- The inputs sampled at one rising edge of `clk` (R56). -/
structure Pins where
  /-- `rst`: synchronous reset, active high. -/
  rst : Bool
  /-- `cfg`: strobe of `configure()`. -/
  cfg : Bool
  /-- `cyc`: strobe, start of one control cycle. -/
  cyc : Bool
  /-- `sens`: sensor levels, polarity-corrected and synchronised by the boundary. -/
  sens : SensorVector
  /-- `pw_we`: strobe of an external `setPulseWidth`; tied to 0 in the composed system. -/
  pwWe : Bool
  /-- `pw_us`: microseconds operand, sampled when `pw_we = 1`. -/
  pwUs : Micros
  deriving DecidableEq, Repr

/-- One thing the environment does to the machine: it presents an event word (R49), or it gives a rising edge of `clk`
with the pins at some levels (R57). -/
inductive Input where
  | word (w : EventWord)
  | edge (pins : Pins)
  deriving DecidableEq, Repr

/-- The machine's state: the eight elements of R10, the prescaler phase of R25, and the inputs still to come. -/
structure State where
  /-- Frame counter (R11). -/
  cnt : Count
  /-- `cmp_shadow`, the writer's half of the compare register (R12). -/
  cmpShadow : Count
  /-- `cmp_active`, the reader's half (R13). -/
  cmpActive : Count
  /-- The timer is armed (R14). -/
  run : Bool
  /-- Controller State (R15). -/
  st : Ctl
  /-- The active sensor identity; LEFT (code 0) in READY (R16). -/
  sel : Sensor
  /-- The Hold Timer, milliseconds (R17). -/
  elapsed : Elapsed
  /-- The indicator register, true = active (R18). -/
  ind : Bool
  /-- The prescaler phase of the port-level binding, 0 to `PRESCALER - 1` (R25, R57). Not architectural state of R10. -/
  pre : Nat
  /-- The model's own field: what the environment has still to apply, oldest first (R36, R105; log 4). -/
  inputs : List Input
  deriving DecidableEq, Repr

/-- The exception causes: "The set of exception causes is empty" (R110). Nothing raises a fault; that the type has no
constructor says so once for every claim, and is safe. -/
inductive Fault where
  deriving DecidableEq, Repr

/-- Why the machine has no step to take. -/
inductive Refusal where
  /-- An instruction without a meaning in `exec`. No arm uses it; safe. -/
  | notModelled (mnemonic : String)
  /-- An event word that spells no event, refused by the decoder (R53: "the model refuses the word (no step, state
  unchanged, a refusal mark)"). Raised by `step` alone; safe: it errs toward unprovable (D19). -/
  | illegalEventWord (w : EventWord) (why : IllegalWord)
  deriving DecidableEq, Repr

/-- The reset state of a machine with parameters `p` (R23), before any input is given. -/
def State.resetWith (p : Params) : State :=
  { cnt := 0
    cmpShadow := BitVec.ofNat 16 p.neutralCounts
    cmpActive := BitVec.ofNat 16 p.neutralCounts
    run := false
    st := .ready
    sel := .left
    elapsed := 0
    ind := false
    pre := 0
    inputs := [] }

/-- The machine right after reset (R23, R125). -/
def State.reset : State := State.resetWith Config.params

end Sys2Proof.Machine
end

