-- ==== Sys2Proof/Machine/Flags.lean ====
section
/-!
DEFINITION. The one-bit outputs, pure functions of the state (spec 10_state.md R21; 40_frame_generator.md R67; 30_encoding.md
R48; 93_implementation_defined.md U1). The one-bit status elements are `run` and `ind` (R26); there are no condition codes.
-/

namespace Sys2Proof.Machine

/-- "Active pulse window": the counter is below the compare value (R21, R67; the strict comparison is D7). -/
def inPulseWindow (s : State) : Bool := decide (s.cnt.toNat < s.cmpActive.toNat)

/-- `pwm` (R21, R67): asserted while the timer runs and `cnt < cmp_active`; complemented while `run = 1` where the
parameter POLARITY_INVERTED is set (U1). -/
def pwm (p : Params) (s : State) : Bool := s.run && (inPulseWindow s ^^ p.polarityInverted)

/-- `ind_active` (R21). -/
def indActive (s : State) : Bool := s.ind

/-- `ind_ready` (R21). -/
def indReady (s : State) : Bool := !s.ind

/-- The triple of outputs (R56, R108). -/
structure Outputs where
  pwm : Bool
  indActive : Bool
  indReady : Bool
  deriving DecidableEq, Repr

/-- The outputs of a state (R21, R108). -/
def outputs (p : Params) (s : State) : Outputs := ⟨pwm p s, indActive s, indReady s⟩

end Sys2Proof.Machine
end

