-- ==== Sys2Proof/Machine/Operands.lean ====
section
/-!
DEFINITION. The operands of events and what they select (spec 30_encoding.md R44, R45, R47, R51, R52; 41_motion_controller.md
R81, R86; 42_system_and_boundary.md R101).
-/

namespace Sys2Proof.Machine

/-- The two-bit code of a sensor identity (R44). -/
def sensorCode : Sensor → BitVec 2
  | .left => 0b00
  | .center => 0b01
  | .right => 0b10

/-- The sensor a two-bit code stands for; `0b11` is not a sensor (R44). -/
def sensorOfCode (c : BitVec 2) : Option Sensor :=
  match c.toNat with
  | 0 => some .left
  | 1 => some .center
  | 2 => some .right
  | _ => none

/-- `readSensor(id)` (R101) on the levels sampled by this cycle: `sens[2]` LEFT, `sens[1]` CENTER, `sens[0]` RIGHT (R45). -/
def readSensor (sens : SensorVector) : Sensor → Bool
  | .left => sens.getLsbD 2
  | .center => sens.getLsbD 1
  | .right => sens.getLsbD 0

/-- The vector of three readings (R45): what `readSensor` reads back. -/
def sensorVector (left center right : Bool) : SensorVector :=
  BitVec.ofNat 3 (left.toNat * 4 + center.toNat * 2 + right.toNat)

/-- Arbitration, "priority order LEFT > CENTER > RIGHT" (R81, R47). -/
def prio (sens : SensorVector) : Option Sensor :=
  if readSensor sens .left then some .left
  else if readSensor sens .center then some .center
  else if readSensor sens .right then some .right
  else none

/-- The pulse-width map `us_of` (R86), microseconds. -/
def usOf (p : Params) : Sensor → Nat
  | .left => p.minUs
  | .center => p.neutralUs
  | .right => p.maxUs

end Sys2Proof.Machine
end

