-- ==== Sys2Proof/Machine/Ops.lean ====
section
/-!
DEFINITION. The operations the events share (spec 40_frame_generator.md R64 to R66; 42_system_and_boundary.md R101 to R104;
41_motion_controller.md R87). There is no memory (20_memory.md R30) and no exception to take or return from
(60_exceptions.md R110, R113), so no operation here does either.
-/

namespace Sys2Proof.Machine

/-- `setPulseWidth(microseconds)` (R104, R65): the write of the shadow half of the compare register, converted first and
clamped second (R62). Defined on every natural number of microseconds (D5); it writes nothing else. -/
def setPulseWidth (p : Params) (us : Nat) (s : State) : State :=
  { s with cmpShadow := BitVec.ofNat 16 (p.clampc (p.conv us)) }

/-- `setIndicator(active)` (R102, R48). -/
def setIndicator (active : Bool) (s : State) : State := { s with ind := active }

/-- `sleep(milliseconds)` (R103): "It changes no state of the block". -/
def sleep (_ms : Nat) (s : State) : State := s

/-- The start of a frame: the counter clears and the buffered pulse width is taken whole (R64, R66, R33, R37). -/
def startFrame (s : State) : State := { s with cnt := 0, cmpActive := s.cmpShadow }

/-- One count inside a frame (R66). -/
def advanceCount (s : State) : State := { s with cnt := BitVec.ofNat 16 (s.cnt.toNat + 1) }

/-- Arms the timer (R64, R14). -/
def armTimer (s : State) : State := { s with run := true }

/-- Writes the prescaler phase (R57). -/
def setPre (n : Nat) (s : State) : State := { s with pre := n }

/-- The frame boundary of the frame in progress: `cnt = TOP` (R66). -/
def atTop (p : Params) (s : State) : Bool := decide (s.cnt.toNat = p.top)

/-- The controller's three sequencing elements (R15): `ACTIVE(s, t)` is `st = ACTIVE, sel = s, elapsed = t`. -/
structure Controller where
  st : Ctl
  sel : Sensor
  elapsed : Elapsed
  deriving DecidableEq, Repr

/-- READY in its one encoding: `st = READY, sel = 0, elapsed = 0` (R15, R46). -/
def readyController : Controller := ⟨.ready, .left, 0⟩

/-- The controller part of a state. -/
def controllerOf (s : State) : Controller := ⟨s.st, s.sel, s.elapsed⟩

/-- Writes the controller part of a state. -/
def setController (c : Controller) (s : State) : State := { s with st := c.st, sel := c.sel, elapsed := c.elapsed }

/-- The generator's four elements (R10). -/
structure Generator where
  cnt : Count
  cmpShadow : Count
  cmpActive : Count
  run : Bool
  deriving DecidableEq, Repr

/-- The generator part of a state (R107). -/
def generatorOf (s : State) : Generator := ⟨s.cnt, s.cmpShadow, s.cmpActive, s.run⟩

end Sys2Proof.Machine
end

