-- ==== Sys2Proof/Machine/Controller.lean ====
section
/-!
DEFINITION. The Motion Arbitration Controller's event CYCLE (spec 41_motion_controller.md R80 to R90).
-/

namespace Sys2Proof.Machine

/-- From READY: a detection enters ACTIVE with the arbitrated sensor and a timer at 0 (R82); none stays READY (R83). -/
def fromReady (sens : SensorVector) : Controller :=
  match prio sens with
  | some d => ⟨.active, d, 0⟩
  | none => readyController

/-- From ACTIVE: the hold goes on while `elapsed + CYCLE_MS < HOLD_MS` (R84), else READY (R85). The sensors are not
consulted (R89, R90). -/
def fromActive (p : Params) (c : Controller) : Controller :=
  if c.elapsed.toNat + p.cycleMs < p.holdMs
  then ⟨.active, c.sel, BitVec.ofNat 13 (c.elapsed.toNat + p.cycleMs)⟩
  else readyController

/-- The transition of one control cycle: exactly one of the arms R82 to R85 (R88, R89). -/
def transition (p : Params) (sens : SensorVector) (c : Controller) : Controller :=
  match c.st with
  | .ready => fromReady sens
  | .active => fromActive p c

/-- The pulse width a controller state commands, microseconds (R86, R87). -/
def commandUs (p : Params) (c : Controller) : Nat :=
  match c.st with
  | .active => usOf p c.sel
  | .ready => p.neutralUs

/-- The indicator a controller state commands (R87). -/
def commandIndicator (c : Controller) : Bool :=
  match c.st with
  | .active => true
  | .ready => false

/-- The two output actions of a cycle, from the new state: SETPW and the indicator (R80 steps 4 and 5, R87). -/
def reassertOutputs (p : Params) (c : Controller) (s : State) : State :=
  setIndicator (commandIndicator c) (setPulseWidth p (commandUs p c) s)

/-- CYCLE (R88): the transition, then the outputs of the state after it, as one state change (R34). -/
def cycleEvent (p : Params) (sens : SensorVector) (s : State) : State :=
  let c := transition p sens (controllerOf s)
  reassertOutputs p c (setController c s)

/-- The meaning of CYCLE (R88). -/
def execCycle (sens : SensorVector) (s : State) : Host.Outcome State Fault Refusal :=
  .next (cycleEvent Config.params sens s)

end Sys2Proof.Machine
end

