-- ==== Sys2Proof/Machine/Generator.lean ====
section
/-!
DEFINITION. The PWM Frame Generator's events CONFIGURE, SETPW and TICK (spec 40_frame_generator.md R64, R65, R66).
-/

namespace Sys2Proof.Machine

/-- CONFIGURE (R64): starts the timer at a frame start; no change while it runs. -/
def configureEvent (s : State) : State :=
  if s.run then s else armTimer (startFrame s)

/-- SETPW (R65): the operand is zero-extended wherever it meets a wider value (R51). -/
def setpwEvent (p : Params) (us : Micros) (s : State) : State := setPulseWidth p us.toNat s

/-- TICK (R66): nothing while the timer is not armed; at `cnt = TOP` a new frame starts; else one count. -/
def tickEvent (p : Params) (s : State) : State :=
  if s.run then
    if atTop p s then startFrame s else advanceCount s
  else s

/-- The meaning of CONFIGURE (R64). -/
def execConfigure (s : State) : Host.Outcome State Fault Refusal := .next (configureEvent s)

/-- The meaning of SETPW (R65). -/
def execSetpw (us : Micros) (s : State) : Host.Outcome State Fault Refusal := .next (setpwEvent Config.params us s)

/-- The meaning of TICK (R66). -/
def execTick (s : State) : Host.Outcome State Fault Refusal := .next (tickEvent Config.params s)

end Sys2Proof.Machine
end

