-- ==== Sys2Proof/Machine/System.lean ====
section
/-!
DEFINITION. The system event RESET (spec 42_system_and_boundary.md R100).
-/

namespace Sys2Proof.Machine

/-- RESET (R100): every element of R10 to its reset value; the prescaler phase belongs to the port-level binding, which
clears it itself (R57; log 6), and what the environment does next is no state of the block. -/
def resetEvent (p : Params) (s : State) : State :=
  { s with
    cnt := 0
    cmpShadow := BitVec.ofNat 16 p.neutralCounts
    cmpActive := BitVec.ofNat 16 p.neutralCounts
    run := false
    st := .ready
    sel := .left
    elapsed := 0
    ind := false }

/-- The meaning of RESET (R100). -/
def execReset (s : State) : Host.Outcome State Fault Refusal := .next (resetEvent Config.params s)

end Sys2Proof.Machine
end

