-- ==== Sys2Proof/Machine/Dispatch.lean ====
section
/-! DEFINITION. The dispatch from events to their meanings, one arm per constructor of Instr (spec 30_encoding.md R50). -/

namespace Sys2Proof.Machine

def exec (i : Instr) (s : State) : Host.Outcome State Fault Refusal :=
  match i with
  | .reset => Sys2Proof.Machine.execReset s
  | .configure => Sys2Proof.Machine.execConfigure s
  | .setpw us => Sys2Proof.Machine.execSetpw us s
  | .tick => Sys2Proof.Machine.execTick s
  | .cycle sens => Sys2Proof.Machine.execCycle sens s

end Sys2Proof.Machine
end

