-- ==== Sys2Proof/Machine/Events.lean ====
section
/-!
DEFINITION. Events as total state changes of a machine with parameters `p`, runs of events and output traces (spec
20_memory.md R34, R36; 42_system_and_boundary.md R106, R108).
-/

namespace Sys2Proof.Machine

/-- The state change of one event on a machine with parameters `p` (R34, R73, R95: every event is atomic and total). -/
def applyEvent (p : Params) (i : Instr) (s : State) : State :=
  match i with
  | .reset => resetEvent p s
  | .configure => configureEvent s
  | .setpw us => setpwEvent p us s
  | .tick => tickEvent p s
  | .cycle sens => cycleEvent p sens s

/-- A run: events applied one after another, each on the state all earlier ones left (R36; 00_scope.md section 4). -/
def runEvents (p : Params) : List Instr → State → State
  | [], s => s
  | i :: es, s => runEvents p es (applyEvent p i s)

/-- The observable behaviour of a run: the outputs after each event (R108). -/
def outputTrace (p : Params) : List Instr → State → List Outputs
  | [], _ => []
  | i :: es, s => outputs p (applyEvent p i s) :: outputTrace p es (applyEvent p i s)

/-- The controller's transitions over the control cycles between two RESETs (R88, R91); the whole controller machine, with RESET
and `ind`, is `runUnit` of Machine/Halves.lean. -/
def runController (p : Params) : List SensorVector → Controller → Controller
  | [], c => c
  | v :: vs, c => runController p vs (transition p v c)

/-- The controller's output stream over those cycles: one pair (microseconds commanded, indicator value) per CYCLE (R108). -/
def commandTrace (p : Params) : List SensorVector → Controller → List (Nat × Bool)
  | [], _ => []
  | v :: vs, c =>
    (commandUs p (transition p v c), commandIndicator (transition p v c)) :: commandTrace p vs (transition p v c)

end Sys2Proof.Machine
end

