-- ==== Sys2Proof/Machine/Ports.lean ====
section
/-!
DEFINITION. The port-level binding (spec 30_encoding.md R56 to R58; 10_state.md R25): what one rising edge of `clk` does.
-/

namespace Sys2Proof.Machine

/-- CONFIGURE where its strobe is on (R57). -/
def configureIf (cfg : Bool) (s : State) : State := if cfg then configureEvent s else s

/-- SETPW where its strobe is on (R57). -/
def setpwIf (p : Params) (we : Bool) (us : Micros) (s : State) : State := if we then setpwEvent p us s else s

/-- CYCLE where its strobe is on (R57). -/
def cycleIf (p : Params) (cyc : Bool) (sens : SensorVector) (s : State) : State :=
  if cyc then cycleEvent p sens s else s

/-- The strobed events of an edge, in the order of R57: configure, the external write, the control cycle. -/
def strobes (p : Params) (pins : Pins) (s : State) : State :=
  cycleIf p pins.cyc pins.sens (setpwIf p pins.pwWe pins.pwUs (configureIf pins.cfg s))

/-- Whether this edge starts the timer (R57, `started`). -/
def startsTimer (pins : Pins) (s : State) : Bool := pins.cfg && !s.run

/-- The prescaler phase, and the TICK it gives at its last value (R57). -/
def advancePhase (p : Params) (s : State) : State :=
  if s.pre = p.prescaler - 1 then tickEvent p (setPre 0 s) else setPre (s.pre + 1) s

/-- One rising edge of `clk` (R57): reset overrides everything; else the strobed events, then the timer. -/
def clockEdge (p : Params) (pins : Pins) (s : State) : State :=
  if pins.rst then setPre 0 (resetEvent p s)
  else if startsTimer pins s then setPre 0 (strobes p pins s)
  else if (strobes p pins s).run then advancePhase p (strobes p pins s)
  else strobes p pins s

/-- An edge at which no strobe is on. -/
def quietPins : Pins := { rst := false, cfg := false, cyc := false, sens := 0, pwWe := false, pwUs := 0 }

/-- The TICK of an edge, if it has one (R57). -/
def edgeTick (p : Params) (pins : Pins) (s : State) : List Instr :=
  if !startsTimer pins s && (s.run && decide (s.pre = p.prescaler - 1)) then [.tick] else []

/-- The event sequence a rising edge applies (R57, the column "event sequence" of the K vectors). -/
def edgeEvents (p : Params) (pins : Pins) (s : State) : List Instr :=
  if pins.rst then [.reset]
  else (if pins.cfg then [.configure] else []) ++ (if pins.pwWe then [.setpw pins.pwUs] else [])
    ++ (if pins.cyc then [.cycle pins.sens] else []) ++ edgeTick p pins s

/-- Clock edges one after another. -/
def runEdges (p : Params) : List Pins → State → State
  | [], s => s
  | q :: qs, s => runEdges p qs (clockEdge p q s)

end Sys2Proof.Machine
end

