-- ==== Sys2Proof/Machine/Fetch.lean ====
section
/-!
DEFINITION. How the machine takes its next input (spec 20_memory.md R36; 30_encoding.md R49, R53, R57; log 4, log 5). It fetches
no instruction from a memory (R40): the environment presents events.
-/

namespace Sys2Proof.Machine

/-- Drops the oldest input. -/
def setInputs (rest : List Input) (s : State) : State := { s with inputs := rest }

/-- Takes the oldest input: an event word is decoded and its event applied by `ev`, an illegal one is refused (R53); a clock
edge is applied by `edge`. With no input waiting nothing happens: the state changes only by events (R106, U15; log 5). -/
def takeInput (ev : Instr → State → Host.Outcome State Fault Refusal) (edge : Pins → State → State) (s : State) :
    Host.Outcome State Fault Refusal :=
  match s.inputs with
  | [] => .next s
  | .word w :: rest =>
    match decodeVerdict w with
    | .event i => ev i (setInputs rest s)
    | .invalid why => .refused (.illegalEventWord w why)
  | .edge pins :: rest => .next (edge pins (setInputs rest s))

/-- Puts an input before all others. -/
def pushInput (q : Input) (s : State) : State := { s with inputs := q :: s.inputs }

end Sys2Proof.Machine
end

