-- ==== Sys2Proof/Machine/Step.lean ====
section
/-! DEFINITION. One step of the machine, and how an event word is placed before it (spec 20_memory.md R34, R36). -/

namespace Sys2Proof.Machine

/-- One step: the oldest waiting input, on the machine with the parameters the spec fixes. -/
def step (s : State) : Host.Outcome State Fault Refusal := takeInput exec (clockEdge Config.params) s

/-- The state with the event word of the table's bits `w` as its next input. A number of more than `EV_W` bits is no event
word and is not presented (log 7). -/
def State.withFetchWord (s : State) (nbits w : Nat) : State :=
  match tableWord nbits w with
  | some e => pushInput (.word e) s
  | none => s

end Sys2Proof.Machine
end

