-- ==== Sys2Proof/Machine/Halves.lean ====
section
/-!
DEFINITION. The two halves as machines of their own, and how they are composed (spec 42_system_and_boundary.md R107, R108): "the
generator as the machine over (`cnt`, `cmp_shadow`, `cmp_active`, `run`) with events RESET, CONFIGURE, SETPW, TICK; the
controller as the machine over (`st`, `sel`, `elapsed`, `ind`) with events RESET and CYCLE and an output stream". Neither
mentions the other's state, nor State.
-/

namespace Sys2Proof.Machine

/-! ## The generator -/

/-- The events of the generator alone (R107); the microseconds of SETPW are any natural number (D5; log 27). -/
inductive GeneratorEvent where
  | reset
  | configure
  | setpw (us : Nat)
  | tick
  deriving DecidableEq, Repr

/-- The generator's reset state (R100, R23). -/
def generatorReset (p : Params) : Generator :=
  ⟨0, BitVec.ofNat 16 p.neutralCounts, BitVec.ofNat 16 p.neutralCounts, false⟩

/-- The start of a frame (R64, R66). -/
def generatorFrame (g : Generator) : Generator := { g with cnt := 0, cmpActive := g.cmpShadow }

/-- CONFIGURE on the generator (R64). -/
def generatorConfigure (g : Generator) : Generator := if g.run then g else { generatorFrame g with run := true }

/-- SETPW on the generator (R65). -/
def generatorSetpw (p : Params) (us : Nat) (g : Generator) : Generator :=
  { g with cmpShadow := BitVec.ofNat 16 (p.clampc (p.conv us)) }

/-- TICK on the generator (R66). -/
def generatorTick (p : Params) (g : Generator) : Generator :=
  if g.run then
    if g.cnt.toNat = p.top then generatorFrame g else { g with cnt := BitVec.ofNat 16 (g.cnt.toNat + 1) }
  else g

/-- One event of the generator machine (R107). -/
def applyGenerator (p : Params) (e : GeneratorEvent) (g : Generator) : Generator :=
  match e with
  | .reset => generatorReset p
  | .configure => generatorConfigure g
  | .setpw us => generatorSetpw p us g
  | .tick => generatorTick p g

/-- A run of the generator machine. -/
def runGenerator (p : Params) : List GeneratorEvent → Generator → Generator
  | [], g => g
  | e :: es, g => runGenerator p es (applyGenerator p e g)

/-- The generator's output `pwm` (R67, R21; U1). -/
def generatorPwm (p : Params) (g : Generator) : Bool :=
  g.run && (decide (g.cnt.toNat < g.cmpActive.toNat) ^^ p.polarityInverted)

/-! ## The controller -/

/-- The controller machine's state: `st`, `sel`, `elapsed`, and `ind` (R107). -/
structure ControllerUnit where
  ctl : Controller
  ind : Bool
  deriving DecidableEq, Repr

/-- The events of the controller alone (R107). -/
inductive ControllerEvent where
  | reset
  | cycle (sens : SensorVector)
  deriving DecidableEq, Repr

/-- The controller's reset state (R100, R23). -/
def unitReset : ControllerUnit := ⟨readyController, false⟩

/-- CYCLE on the controller (R88): the transition, then the indicator of the new state. -/
def unitCycle (p : Params) (sens : SensorVector) (u : ControllerUnit) : ControllerUnit :=
  ⟨transition p sens u.ctl, commandIndicator (transition p sens u.ctl)⟩

/-- One event of the controller machine (R107). -/
def applyUnit (p : Params) (e : ControllerEvent) (u : ControllerUnit) : ControllerUnit :=
  match e with
  | .reset => unitReset
  | .cycle sens => unitCycle p sens u

/-- A run of the controller machine. -/
def runUnit (p : Params) : List ControllerEvent → ControllerUnit → ControllerUnit
  | [], u => u
  | e :: es, u => runUnit p es (applyUnit p e u)

/-- What the controller puts out at an event (R107, R108): at a CYCLE the pair of the microseconds commanded and the indicator,
of the state after it; nothing at RESET. -/
def unitOutput (p : Params) (e : ControllerEvent) (u : ControllerUnit) : List (Nat × Bool) :=
  match e with
  | .reset => []
  | .cycle sens => [(commandUs p (unitCycle p sens u).ctl, (unitCycle p sens u).ind)]

/-- The controller machine's output stream, "one per cycle" (R107, R108). -/
def unitTrace (p : Params) : List ControllerEvent → ControllerUnit → List (Nat × Bool)
  | [], _ => []
  | e :: es, u => unitOutput p e u ++ unitTrace p es (applyUnit p e u)

/-! ## The composition -/

/-- The controller's half of a state (R107). -/
def unitOf (s : State) : ControllerUnit := ⟨controllerOf s, s.ind⟩

/-- The controller's events in a run of the whole machine. -/
def unitEvents : List Instr → List ControllerEvent
  | [] => []
  | .reset :: es => .reset :: unitEvents es
  | .cycle sens :: es => .cycle sens :: unitEvents es
  | .configure :: es => unitEvents es
  | .setpw _ :: es => unitEvents es
  | .tick :: es => unitEvents es

/-- The generator's events in a run of the whole machine, given the controller's output stream: a CYCLE is a SETPW of the width
the stream holds next ("The controller depends on the generator only through SETPW", R107). -/
def feed : List Instr → List (Nat × Bool) → List GeneratorEvent
  | [], _ => []
  | .reset :: es, out => .reset :: feed es out
  | .configure :: es, out => .configure :: feed es out
  | .setpw us :: es, out => .setpw us.toNat :: feed es out
  | .tick :: es, out => .tick :: feed es out
  | .cycle _ :: es, (us, _) :: out => .setpw us :: feed es out
  | .cycle _ :: es, [] => feed es []

end Sys2Proof.Machine
end

