-- ==== Sys2Proof/Machine/Runs.lean ====
section
/-!
DEFINITION. Which sequences of events are runs, finite and infinite, fairness, and the nominal schedule (spec
42_system_and_boundary.md R105, R106; 70_reset_and_hazards.md R126). A schedule is no part of State (00_scope.md section 6): an
infinite run is observed through its finite prefixes (R106).
-/

namespace Sys2Proof.Machine

/-- An infinite sequence of events, the event at each place (R105). -/
abbrev Schedule := Nat → Instr

/-- A finite run begins with RESET (R105); otherwise any events in any order. -/
abbrev IsRun (es : List Instr) : Prop := es.head? = some .reset

/-- An infinite run begins with RESET (R105); otherwise any events in any order. -/
abbrev IsInfiniteRun (sched : Schedule) : Prop := sched 0 = .reset

/-- "in an infinite run both TICK and CYCLE occur infinitely often" (R105): "the only timing assumption a liveness claim may
use". -/
abbrev Fair (sched : Schedule) : Prop :=
  (∀ n, ∃ m, n ≤ m ∧ sched m = .tick) ∧ (∀ n, ∃ m v, n ≤ m ∧ sched m = .cycle v)

/-- The first `n` events of a schedule (R106: a model's observation is over prefixes). -/
def prefixOf (sched : Schedule) (n : Nat) : List Instr := (List.range n).map sched

/-- The state after the first `n` events of a schedule (R36, R106). -/
def stateAt (p : Params) (sched : Schedule) (s : State) : Nat → State
  | 0 => s
  | n + 1 => applyEvent p (sched n) (stateAt p sched s n)

/-- Ticks from one CYCLE of the nominal schedule to the next, `CYCLE_MS × CLK_HZ / (PRESCALER × 1000)` (R105). -/
def nominalTicks (p : Params) : Nat := p.ticksOfMs p.cycleMs

/-- One period of the nominal schedule (R105): one CYCLE, then the ticks up to the next. -/
def nominalPeriod (p : Params) (sens : SensorVector) : List Instr := .cycle sens :: List.replicate (nominalTicks p) .tick

/-- A finite piece of the nominal schedule (R105, R126): RESET, CONFIGURE, `phase` ticks up to the first CYCLE, which the spec
leaves "at any phase", then whole periods. That CONFIGURE stands next to RESET and that the piece ends with a whole period
is the model's choice (log 26). -/
def nominalRun (p : Params) (phase : Nat) (senses : List SensorVector) : List Instr :=
  .reset :: .configure :: (List.replicate phase .tick ++ senses.flatMap (nominalPeriod p))

/-- The event at place `k` after the start-up of the nominal schedule: a CYCLE every `nominalTicks` ticks. -/
def nominalEvent (p : Params) (phase : Nat) (senses : Nat → SensorVector) (k : Nat) : Instr :=
  if k < phase then .tick
  else if (k - phase) % (nominalTicks p + 1) = 0 then .cycle (senses ((k - phase) / (nominalTicks p + 1)))
  else .tick

/-- The nominal schedule as an infinite run (R105, R126; log 26), the sensors drawn at each cycle. -/
def nominalSchedule (p : Params) (phase : Nat) (senses : Nat → SensorVector) : Schedule
  | 0 => .reset
  | 1 => .configure
  | k + 2 => nominalEvent p phase senses k

end Sys2Proof.Machine
end

