-- ==== Sys2Proof/Machine/TextForm.lean ====
section
/-!
DEFINITION. The text form of events and the pseudo-events (spec 30_encoding.md R54, R55). Text is a list of characters; blanks
and letter case of hexadecimal digits are as log 13 says.
-/

namespace Sys2Proof.Machine

/-- The pseudo-events of R55. -/
inductive Pseudo where
  /-- `TICK*n`. -/
  | tickN (n : Nat)
  /-- `FRAME`. -/
  | frame
  /-- `CYCLE*n <sens>`. -/
  | cycleN (n : Nat) (sens : SensorVector)
  /-- `CYCLE.L`. -/
  | cycleL
  /-- `CYCLE.C`. -/
  | cycleC
  /-- `CYCLE.R`. -/
  | cycleR
  /-- `CYCLE.NONE`. -/
  | cycleNone
  /-- `SETPW.MIN`. -/
  | setpwMin
  /-- `SETPW.NEUTRAL`. -/
  | setpwNeutral
  /-- `SETPW.MAX`. -/
  | setpwMax
  /-- `SLEEP <ms>`. -/
  | sleep (ms : Nat)
  deriving DecidableEq, Repr

/-- `FRAME` as a count: `TOP + 1` ticks (R55). -/
def frameEvents (p : Params) : List Instr := List.replicate p.frameTicks .tick

/-- The expansion of a pseudo-event at the event level (R55): `SLEEP` is nothing. -/
def expand (p : Params) : Pseudo → List Instr
  | .tickN n => List.replicate n .tick
  | .frame => frameEvents p
  | .cycleN n sens => List.replicate n (.cycle sens)
  | .cycleL => [.cycle 0b100]
  | .cycleC => [.cycle 0b010]
  | .cycleR => [.cycle 0b001]
  | .cycleNone => [.cycle 0b000]
  | .setpwMin => [.setpw 1000]
  | .setpwNeutral => [.setpw 1500]
  | .setpwMax => [.setpw 2000]
  | .sleep _ => []

/-- The expansion under the nominal schedule, where `SLEEP ms` is the ticks that pass (R55, R105). -/
def expandNominal (p : Params) : Pseudo → List Instr
  | .sleep ms => List.replicate (p.ticksOfMs ms) .tick
  | q => expand p q

/-- One line of text: nothing, an event, or a pseudo-event. -/
inductive Line where
  | blank
  | event (i : Instr)
  | pseudo (q : Pseudo)
  deriving DecidableEq, Repr

/-- The line without its comment: `;` starts one (R54). -/
def dropComment : List Char → List Char
  | [] => []
  | c :: cs => if c = ';' then [] else c :: dropComment cs

/-- The words of a line, `cur` the word being read. -/
def wordsFrom : List Char → List Char → List (List Char)
  | [], cur => if cur = [] then [] else [cur]
  | c :: cs, cur =>
    if c = ' ' ∨ c = '\t' then (if cur = [] then wordsFrom cs [] else cur :: wordsFrom cs [])
    else wordsFrom cs (cur ++ [c])

/-- The value of a digit in a base of at most 16. -/
def digitValue (base : Nat) (c : Char) : Option Nat :=
  let n := c.toNat
  let v := if 48 ≤ n ∧ n ≤ 57 then n - 48
    else if 65 ≤ n ∧ n ≤ 70 then n - 55
    else if 97 ≤ n ∧ n ≤ 102 then n - 87
    else base
  if v < base then some v else none

/-- Reads digits after the value `acc` of the digits before them. -/
def digitsFrom (base : Nat) : List Char → Nat → Option Nat
  | [], acc => some acc
  | c :: cs, acc =>
    match digitValue base c with
    | some v => digitsFrom base cs (acc * base + v)
    | none => none

/-- A numeral with at least one digit. -/
def numeralIn (base : Nat) (cs : List Char) : Option Nat := if cs = [] then none else digitsFrom base cs 0

/-- A numeral: `0x` hexadecimal, `0b` binary, else decimal (R54). -/
def numeral : List Char → Option Nat
  | '0' :: 'x' :: cs => numeralIn 16 cs
  | '0' :: 'b' :: cs => numeralIn 2 cs
  | cs => numeralIn 10 cs

/-- The operand of SETPW: `0 <= us <= 65535` (R54). -/
def microsOf (cs : List Char) : Option Micros :=
  match numeral cs with
  | some n => if n < 65536 then some (BitVec.ofNat 16 n) else none
  | none => none

/-- The operand of CYCLE: `0 <= sens <= 7` (R54). -/
def sensOf (cs : List Char) : Option SensorVector :=
  match numeral cs with
  | some n => if n < 8 then some (BitVec.ofNat 3 n) else none
  | none => none

/-- The mnemonics of R54. -/
def txtReset : List Char := ['R', 'E', 'S', 'E', 'T']
def txtConfigure : List Char := ['C', 'O', 'N', 'F', 'I', 'G', 'U', 'R', 'E']
def txtSetpw : List Char := ['S', 'E', 'T', 'P', 'W']
def txtTick : List Char := ['T', 'I', 'C', 'K']
def txtCycle : List Char := ['C', 'Y', 'C', 'L', 'E']
def txtFrame : List Char := ['F', 'R', 'A', 'M', 'E']
def txtSleep : List Char := ['S', 'L', 'E', 'E', 'P']

/-- A line of one word (R54, R55). -/
def lineOfWord (w : List Char) : Option Line :=
  if w = txtReset then some (.event .reset)
  else if w = txtConfigure then some (.event .configure)
  else if w = txtTick then some (.event .tick)
  else if w = txtFrame then some (.pseudo .frame)
  else if w = txtCycle ++ ['.', 'L'] then some (.pseudo .cycleL)
  else if w = txtCycle ++ ['.', 'C'] then some (.pseudo .cycleC)
  else if w = txtCycle ++ ['.', 'R'] then some (.pseudo .cycleR)
  else if w = txtCycle ++ ['.', 'N', 'O', 'N', 'E'] then some (.pseudo .cycleNone)
  else if w = txtSetpw ++ ['.', 'M', 'I', 'N'] then some (.pseudo .setpwMin)
  else if w = txtSetpw ++ ['.', 'N', 'E', 'U', 'T', 'R', 'A', 'L'] then some (.pseudo .setpwNeutral)
  else if w = txtSetpw ++ ['.', 'M', 'A', 'X'] then some (.pseudo .setpwMax)
  else
    match w with
    | 'T' :: 'I' :: 'C' :: 'K' :: '*' :: ds => (numeral ds).map (fun n => .pseudo (.tickN n))
    | _ => none

/-- A line of a word and an operand (R54, R55). -/
def lineOfPair (w o : List Char) : Option Line :=
  if w = txtSetpw then (microsOf o).map (fun us => .event (.setpw us))
  else if w = txtCycle then (sensOf o).map (fun v => .event (.cycle v))
  else if w = txtSleep then (numeral o).map (fun ms => .pseudo (.sleep ms))
  else
    match w with
    | 'C' :: 'Y' :: 'C' :: 'L' :: 'E' :: '*' :: ds =>
      match numeral ds, sensOf o with
      | some n, some v => some (.pseudo (.cycleN n v))
      | _, _ => none
    | _ => none

/-- Reads one line; none where it is no line of R54 or R55. -/
def parseLine (cs : List Char) : Option Line :=
  match wordsFrom (dropComment cs) [] with
  | [] => some .blank
  | [w] => lineOfWord w
  | [w, o] => lineOfPair w o
  | _ => none

/-- The events of a line (R55). -/
def lineEvents (p : Params) : Line → List Instr
  | .blank => []
  | .event i => [i]
  | .pseudo q => expand p q

/-- The events of a text, its lines read in order; none where a line does not read. -/
def assemble (p : Params) : List (List Char) → Option (List Instr)
  | [] => some []
  | l :: ls =>
    match parseLine l, assemble p ls with
    | some x, some es => some (lineEvents p x ++ es)
    | _, _ => none

/-- A decimal digit. -/
def decimalDigit (n : Nat) : Char := Char.ofNat (48 + n % 10)

/-- The decimal numeral of `n`, at most `fuel` digits. -/
def decimal : Nat → Nat → List Char
  | 0, _ => []
  | fuel + 1, n => if n < 10 then [decimalDigit n] else decimal fuel (n / 10) ++ [decimalDigit n]

/-- A binary digit. -/
def binaryDigit (b : Bool) : Char := if b then '1' else '0'

/-- The text of an event (R54): the operand of CYCLE "written 0bLCR". -/
def printEvent : Instr → List Char
  | .reset => txtReset
  | .configure => txtConfigure
  | .setpw us => txtSetpw ++ ' ' :: decimal 5 us.toNat
  | .tick => txtTick
  | .cycle sens =>
    txtCycle ++ [' ', '0', 'b', binaryDigit (sens.getLsbD 2), binaryDigit (sens.getLsbD 1), binaryDigit (sens.getLsbD 0)]

end Sys2Proof.Machine
end

