-- ==== Sys2Proof/Machine/Instantiate.lean ====
section
/-!
DEFINITION. The machine for any parameter set (spec 00_scope.md R3 "a model may take it as an argument", R6 "a model refuses to
be instantiated on it").
-/

namespace Sys2Proof.Machine

/-- One event on a machine with parameters `p`, as an outcome of a step: every event completes (R39). -/
def execWith (p : Params) (i : Instr) (s : State) : Host.Outcome State Fault Refusal := .next (applyEvent p i s)

/-- One step of a machine with parameters `p`. -/
def stepWith (p : Params) (s : State) : Host.Outcome State Fault Refusal := takeInput (execWith p) (clockEdge p) s

/-- The machine built with parameters `p`; none where one of V1 to V9 fails (R6, U11). -/
def instantiate (p : Params) : Option Host.Core :=
  if p.Valid then
    some { State := State, Fault := Fault, Refusal := Refusal, step := stepWith p, reset := State.resetWith p }
  else none

end Sys2Proof.Machine
end

