-- ==== Sys2Proof/Machine/Views.lean ====
section
/-!
DEFINITION. The equivalent views of the controller the spec gives beside its state: the inductive READY / ACTIVE(s, t)
(10_state.md R15), the 16-bit tuple (30_encoding.md R46), the hold timer as a decrement (41_motion_controller.md R92) and as a
count of cycles (R93).
-/

namespace Sys2Proof.Machine

/-- "constructors `ready` and `active (s : Sensor) (t : Nat)`" (R15). -/
inductive CtlView where
  | ready
  | active (s : Sensor) (t : Nat)
  deriving DecidableEq, Repr

/-- The inductive view of the triple (R15). -/
def viewOf (c : Controller) : CtlView :=
  match c.st with
  | .ready => .ready
  | .active => .active c.sel c.elapsed.toNat

/-- The triple of a view (R15). -/
def ofView : CtlView → Controller
  | .ready => readyController
  | .active s t => ⟨.active, s, BitVec.ofNat 13 t⟩

/-- The bit of the Controller State: READY = 0, ACTIVE = 1 (R46). -/
def ctlBit : Ctl → BitVec 1
  | .ready => 0
  | .active => 1

/-- The 16-bit tuple `{st, sel[1:0], elapsed[12:0]}` (R46). -/
def packController (c : Controller) : BitVec 16 :=
  BitVec.ofNat 16 ((ctlBit c.st).toNat * 32768 + (sensorCode c.sel).toNat * 8192 + c.elapsed.toNat)

/-- The controller a 16-bit tuple stands for; none where `sel = 0b11` (R44, R46). -/
def unpackController (v : BitVec 16) : Option Controller :=
  match sensorOfCode (v.extractLsb' 13 2) with
  | none => none
  | some s => some ⟨if v.getLsbD 15 then .active else .ready, s, v.extractLsb' 0 13⟩

/-- `remaining = HOLD_MS - elapsed` (R92), meant for `st = ACTIVE`. -/
def remaining (p : Params) (c : Controller) : Nat := p.holdMs - c.elapsed.toNat

/-- The cycle count `n` with `elapsed = n × CYCLE_MS` (R93). -/
def cycleCount (p : Params) (c : Controller) : Nat := c.elapsed.toNat / p.cycleMs

/-- A controller that stores another number in place of `elapsed`: `remaining` (R92) or `n` (R93). -/
structure TimerController where
  st : Ctl
  sel : Sensor
  timer : Nat
  deriving DecidableEq, Repr

/-- READY of a controller with another timer, which holds 0 there. As a cycle count that is R93's `elapsed = n × CYCLE_MS` at
`elapsed = 0`; for `remaining`, which R92 defines in ACTIVE only, it is the model's choice (DESIGN CHOICE, log 28). -/
def timerReady : TimerController := ⟨.ready, .left, 0⟩

/-- An implementation with a decrementing timer (R92): loaded with `HOLD_MS`, "returns the controller to READY when it would
reach zero or below". -/
def downTransition (p : Params) (sens : SensorVector) (c : TimerController) : TimerController :=
  match c.st with
  | .ready =>
    match prio sens with
    | some d => ⟨.active, d, p.holdMs⟩
    | none => timerReady
  | .active => if c.timer ≤ p.cycleMs then timerReady else ⟨.active, c.sel, c.timer - p.cycleMs⟩

/-- The bijection of R92 in ACTIVE; READY goes to `timerReady` (log 28). -/
def toDown (p : Params) (c : Controller) : TimerController :=
  match c.st with
  | .ready => timerReady
  | .active => ⟨.active, c.sel, remaining p c⟩

/-- An implementation that counts cycles (R93): "compare `n + 1` with `HOLD_CYCLES`". -/
def countTransition (p : Params) (sens : SensorVector) (c : TimerController) : TimerController :=
  match c.st with
  | .ready =>
    match prio sens with
    | some d => ⟨.active, d, 0⟩
    | none => timerReady
  | .active => if c.timer + 1 < p.holdCycles then ⟨.active, c.sel, c.timer + 1⟩ else timerReady

/-- The correspondence of R93. -/
def toCount (p : Params) (c : Controller) : TimerController :=
  match c.st with
  | .ready => timerReady
  | .active => ⟨.active, c.sel, cycleCount p c⟩

end Sys2Proof.Machine
end

