-- ==== Sys2Proof/Safety.lean ====
section
/-!
DEFINITION. The terms claims use: the invariants of spec 10_state.md R19, legal inputs (30_encoding.md R53), and what is counted
along a run (40_frame_generator.md R68; 41_motion_controller.md R91).
-/

namespace Sys2Proof.Machine

/-- I1 (R19): `0 <= cnt <= TOP`. -/
abbrev CountInFrame (p : Params) (s : State) : Prop := s.cnt.toNat ≤ p.top

/-- A pulse width in counts that lies in `[minCounts, maxCounts]`. -/
abbrev InRange (p : Params) (c : Count) : Prop := p.minCounts ≤ c.toNat ∧ c.toNat ≤ p.maxCounts

/-- I2 (R19). -/
abbrev CompareInRange (p : Params) (s : State) : Prop := InRange p s.cmpShadow ∧ InRange p s.cmpActive

/-- I3 (R19): `run = 0` implies `cnt = 0`. -/
abbrev StoppedAtZero (s : State) : Prop := s.run = false → s.cnt = 0

/-- I4 (R19): READY has one encoding. -/
abbrev ReadyCanonical (c : Controller) : Prop := c.st = .ready → c.sel = .left ∧ c.elapsed = 0

/-- I5 (R19); `sel in {0, 1, 2}` holds by the type of `sel` (R44). -/
abbrev HoldInRange (p : Params) (c : Controller) : Prop :=
  c.st = .active → c.elapsed.toNat < p.holdMs ∧ p.cycleMs ∣ c.elapsed.toNat

/-- I6 (R19): `ind = 1` if and only if `st = ACTIVE`. -/
abbrev IndicatorAgrees (s : State) : Prop := s.ind = true ↔ s.st = .active

/-- I7 (R19): `cmp_active < TOP + 1`. -/
abbrev PulseEnds (p : Params) (s : State) : Prop := s.cmpActive.toNat < p.top + 1

/-- The prescaler phase stays in `0 .. PRESCALER - 1` (R25). -/
abbrev PhaseInRange (p : Params) (s : State) : Prop := s.pre < p.prescaler

/-- The controller's half of the invariants (I4, I5). -/
abbrev CtlInv (p : Params) (c : Controller) : Prop := ReadyCanonical c ∧ HoldInRange p c

/-- The invariants I1 to I7 of R19, and the range of `pre` of R25. -/
abbrev Inv (p : Params) (s : State) : Prop :=
  CountInFrame p s ∧ CompareInRange p s ∧ StoppedAtZero s ∧ CtlInv p (controllerOf s) ∧ IndicatorAgrees s ∧
    PulseEnds p s ∧ PhaseInRange p s

/-- The linking invariant of R19 for the composed system: `cmp_shadow` holds what the controller's state commands. -/
abbrev Linked (p : Params) (s : State) : Prop :=
  s.cmpShadow.toNat = p.clampc (p.conv (commandUs p (controllerOf s)))

/-- Input the machine takes without a refusal: an event word that spells an event (R53), or any clock edge (R57). -/
def legalInput : Input → Bool
  | .word w => decide (LegalWord w)
  | .edge _ => true

/-- A safe run is one whose waiting inputs are all legal: no step of it is refused. -/
abbrev SafeInputs (s : State) : Prop := ∀ q ∈ s.inputs, legalInput q = true

/-- The ticks of a run of events. -/
def countTicks : List Instr → Nat
  | [] => 0
  | .tick :: es => countTicks es + 1
  | _ :: es => countTicks es

/-- The sensor vectors of the control cycles of a run, in order. -/
def sensesOf : List Instr → List SensorVector
  | [] => []
  | .cycle sens :: es => sens :: sensesOf es
  | _ :: es => sensesOf es

/-- The ticks of a run that find `pwm = 1` (R68: "`pwm = 1` before ticks ..."). -/
def highTicks (p : Params) : List Instr → State → Nat
  | [], _ => 0
  | .tick :: es, s => (if pwm p s then 1 else 0) + highTicks p es (applyEvent p .tick s)
  | i :: es, s => highTicks p es (applyEvent p i s)

/-- The changes of `pwm` from 0 to 1 along a run. -/
def risingEdges (p : Params) : List Instr → State → Nat
  | [], _ => 0
  | i :: es, s => (if !pwm p s && pwm p (applyEvent p i s) then 1 else 0) + risingEdges p es (applyEvent p i s)

/-- The changes of `pwm` from 1 to 0 along a run. -/
def fallingEdges (p : Params) : List Instr → State → Nat
  | [], _ => 0
  | i :: es, s => (if pwm p s && !pwm p (applyEvent p i s) then 1 else 0) + fallingEdges p es (applyEvent p i s)

/-- A run that holds no RESET. -/
abbrev NoReset (es : List Instr) : Prop := Instr.reset ∉ es

/-- A run in which nothing but the controller commands a pulse width: no SETPW of the environment (R19, R20). -/
abbrev NoExternalWrite (es : List Instr) : Prop := ∀ us, Instr.setpw us ∉ es

/-- A run of TICK and CONFIGURE only: it commands no pulse width and resets nothing. -/
abbrev NoCommand (es : List Instr) : Prop := ∀ i ∈ es, i = .tick ∨ i = .configure

end Sys2Proof.Machine
end

