-- ==== Sys2Proof/Certificates/Slice0/Obligations.lean ====
section
/-!
DEFINITION. The statements for the provers. Each docstring names the rule of spec/ it formalises. Where a clause rests on a
decision the spec marks as its own (D<n> of 92_eei_decisions.md) or on a choice of this model (log n), the docstring says so
and the statement's basis is 'derived'.
-/

open Sys2Proof Sys2Proof.Machine

/-! ## The events on the machine the spec fixes -/

/-- RESET (42_system_and_boundary.md section 1): from every state, every element of R10 takes its reset value, the outputs are
`pwm = 0, ind_active = 0, ind_ready = 1`, and a second RESET changes nothing. That `cnt`, `run` and the compare registers
have these values is the spec's decision D9, the indicator D24, that reset stops the timer D30; that `pre` is left alone is
log 6, that the waiting inputs are is log 4. -/
def Obligations.ResetGivesTheResetState : Prop :=
  ∀ s : State,
    let t : State := { s with
      cnt := 0#16, cmpShadow := 3000#16, cmpActive := 3000#16, run := false
      st := .ready, sel := .left, elapsed := 0#13, ind := false }
    exec .reset s = .next t ∧ exec .reset t = .next t ∧
      outputs Config.params t = { pwm := false, indActive := false, indReady := true }

/-- CONFIGURE (40_frame_generator.md section 2): it starts the timer at a frame start with the commanded pulse width, and `pwm` is
1 at once where that width is not 0; while the timer runs it changes nothing (the spec's decision D10). -/
def Obligations.ConfigureStartsTheTimerOnce : Prop :=
  ∀ s : State,
    (s.run = true → exec .configure s = .next s) ∧
    (s.run = false →
      exec .configure s = .next { s with cnt := 0#16, cmpActive := s.cmpShadow, run := true } ∧
      (0 < s.cmpShadow.toNat →
        pwm Config.params { s with cnt := 0#16, cmpActive := s.cmpShadow, run := true } = true))

/-- SETPW (R65), at every operand and in every state: the shadow compare register takes twice the microseconds, clamped to 2000
to 4000 counts, and nothing else changes, so `pwm` does not; the operand is the word's low 16 bits. -/
def Obligations.SetpwWritesTheClampedCounts : Prop :=
  ∀ (us : Micros) (s : State),
    let t : State := { s with cmpShadow := BitVec.ofNat 16 (max 2000 (min 4000 (2 * us.toNat))) }
    exec (.setpw us) s = .next t ∧ pwm Config.params t = pwm Config.params s ∧
      opField (encode (.setpw us)) = 0x2#4 ∧ argField (encode (.setpw us)) = us

/-- TICK (40_frame_generator.md section 2): nothing while the timer is not armed (the spec's decision D11); at 39999 the counter
clears and the buffered width is taken (D8); else one count. Above 39999, where no run gets, the count wraps at 16 bits
(log 9). -/
def Obligations.TickCountsOrStartsAFrame : Prop :=
  ∀ s : State,
    (s.run = false → exec .tick s = .next s) ∧
    (s.run = true → s.cnt.toNat = 39999 →
      exec .tick s = .next { s with cnt := 0#16, cmpActive := s.cmpShadow }) ∧
    (s.run = true → s.cnt.toNat ≠ 39999 → exec .tick s = .next { s with cnt := s.cnt + 1#16 })

/-- CYCLE from READY, the whole state after it (41_motion_controller.md sections 1 to 3): the highest-priority detected sensor is
latched with a timer at 0, its pulse width is commanded and the indicator is active; with no detection neutral and "ready"
are commanded and the state is READY in its one encoding, also from a READY state with `sel` or `elapsed` not 0, which no
run reaches (log 9). -/
def Obligations.CycleFromReadyArbitrates : Prop :=
  ∀ (sens : SensorVector) (s : State), s.st = .ready →
    (sens.getLsbD 2 = true → prio sens = some .left ∧
      exec (.cycle sens) s = .next { s with
        st := .active, sel := .left, elapsed := 0#13, ind := true, cmpShadow := 2000#16 }) ∧
    (sens.getLsbD 2 = false → sens.getLsbD 1 = true → prio sens = some .center ∧
      exec (.cycle sens) s = .next { s with
        st := .active, sel := .center, elapsed := 0#13, ind := true, cmpShadow := 3000#16 }) ∧
    (sens.getLsbD 2 = false → sens.getLsbD 1 = false → sens.getLsbD 0 = true → prio sens = some .right ∧
      exec (.cycle sens) s = .next { s with
        st := .active, sel := .right, elapsed := 0#13, ind := true, cmpShadow := 4000#16 }) ∧
    (sens = 0b000#3 → prio sens = none ∧
      exec (.cycle sens) s = .next { s with
        st := .ready, sel := .left, elapsed := 0#13, ind := false, cmpShadow := 3000#16 })

/-- CYCLE during a hold (41_motion_controller.md section 2): at every sensor vector, the hold goes on while `elapsed + 50 < 5000`
and re-asserts its pulse width; else the cycle returns to READY, neutral and "ready". That the increment is 50 is the
spec's decision D13, that READY has one encoding D16, that a detection in the last cycle waits D15. -/
def Obligations.CycleAdvancesOrEndsTheHold : Prop :=
  ∀ (sens : SensorVector) (s : State), s.st = .active →
    (s.elapsed.toNat + 50 < 5000 →
      exec (.cycle sens) s = .next { s with
        elapsed := s.elapsed + 50#13, ind := true
        cmpShadow := match s.sel with
          | .left => 2000#16
          | .center => 3000#16
          | .right => 4000#16 }) ∧
    (5000 ≤ s.elapsed.toNat + 50 →
      exec (.cycle sens) s = .next { s with
        st := .ready, sel := .left, elapsed := 0#13, ind := false, cmpShadow := 3000#16 })

/-- R87, R102: after every CYCLE, whatever the state before it, the indicator and the commanded width are those of the state
after it; the counter, the active compare value and the run flag are not written, so `pwm` does not change (R88). -/
def Obligations.CycleReassertsItsOutputs : Prop :=
  ∀ (sens : SensorVector) (s : State), ∃ t : State, exec (.cycle sens) s = .next t ∧
    (t.st = .active → t.ind = true ∧
      t.cmpShadow = match t.sel with
        | .left => 2000#16
        | .center => 3000#16
        | .right => 4000#16) ∧
    (t.st = .ready → t.ind = false ∧ t.cmpShadow = 3000#16) ∧
    t.cnt = s.cnt ∧ t.cmpActive = s.cmpActive ∧ t.run = s.run ∧ t.pre = s.pre ∧ t.inputs = s.inputs ∧
    pwm Config.params t = pwm Config.params s

/-! ## Encoding -/

/-- Decoding the word of an event gives it back, at every operand value (30_encoding.md section 2; the encoding is the spec's
decision D18). -/
def Obligations.DecodeOfEncodeIsTheEvent : Prop :=
  ∀ i : Instr, decode (encode i) = some i

/-- Every legal word is the word of the event it spells, and of no other (30_encoding.md section 2; D18). -/
def Obligations.WordSpellsOneEvent : Prop :=
  ∀ (w : EventWord) (i : Instr), decode w = some i ↔ w = encode i

/-- The decoder refuses exactly the words of the three clauses of 30_encoding.md section 2 ("Reserved and illegal event words",
the spec's decision D19), each under its own name. -/
def Obligations.DecoderRefusesExactlyTheIllegalWords : Prop :=
  ∀ w : EventWord,
    let op := (opField w).toNat
    let arg := (argField w).toNat
    (decodeVerdict w = .invalid (.reservedOpcode (opField w)) ↔ 5 ≤ op) ∧
    (decodeVerdict w = .invalid (.operandNotZero (opField w)) ↔ (op = 0 ∨ op = 1 ∨ op = 3) ∧ arg ≠ 0) ∧
    (decodeVerdict w = .invalid .cycleHighBits ↔ op = 4 ∧ 8 ≤ arg) ∧
    (decode w = none ↔ 5 ≤ op ∨ ((op = 0 ∨ op = 1 ∨ op = 3) ∧ arg ≠ 0) ∨ (op = 4 ∧ 8 ≤ arg))

/-- The match and mask list (30_encoding.md section 2, D18) decides the same words: a word decodes to an event exactly when it
falls under a row, that row is the event's, and no word falls under two. -/
def Obligations.MatchAndMaskRowsAgreeWithTheDecoder : Prop :=
  ∀ w : EventWord,
    (∀ i, decode w = some i → ∀ r ∈ opcodeRows, (r.covers w = true ↔ r = rowOf i)) ∧
    (decode w = none → ∀ r ∈ opcodeRows, r.covers w = false)

/-- Words written out from 30_encoding.md section 2 and the E vectors of 95_test_vectors.md decode to the events they spell, and
the illegal ones to none. -/
def Obligations.DecodesTheWordsTheSpecWritesOut : Prop :=
  decode 0x00000#20 = some .reset ∧ decode 0x10000#20 = some .configure ∧
  decode 0x203E8#20 = some (.setpw 1000#16) ∧ decode 0x2FFFF#20 = some (.setpw 65535#16) ∧
  decode 0x30000#20 = some .tick ∧ decode 0x40005#20 = some (.cycle 0b101#3) ∧
  decode 0x40008#20 = none ∧ decode 0x50000#20 = none ∧ decode 0x30001#20 = none ∧ decode 0x00001#20 = none

/-! ## The step -/

/-- A step runs the decoded event: where the oldest input is a word that spells `i`, the step is `exec i` on the state without
that input (20_memory.md R36; that inputs wait in a list is log 4). -/
def Obligations.StepRunsTheDecodedEvent : Prop :=
  ∀ (s : State) (w : EventWord) (rest : List Input) (i : Instr),
    s.inputs = .word w :: rest → decode w = some i → step s = exec i { s with inputs := rest }

/-- A step on a word that spells no event is refused under the clause that makes the word illegal, and takes no step
(30_encoding.md section 2, D19). -/
def Obligations.StepRefusesAnIllegalWord : Prop :=
  ∀ (s : State) (w : EventWord) (rest : List Input),
    s.inputs = .word w :: rest → decode w = none →
    ∃ why, decodeVerdict w = .invalid why ∧ step s = .refused (.illegalEventWord w why)

/-- A step on a clock edge applies the port-level binding (30_encoding.md section 4, D21), and with no input waiting a step changes
nothing (log 5). -/
def Obligations.StepAppliesAClockEdgeOrIdles : Prop :=
  ∀ s : State,
    (∀ pins rest, s.inputs = .edge pins :: rest →
      step s = .next (clockEdge Config.params pins { s with inputs := rest })) ∧
    (s.inputs = [] → step s = .next s)

/-- The table's bits of an event, placed as the next input, are the event the next step runs (30_encoding.md section 2; log 7). -/
def Obligations.PlacedTableWordRunsNext : Prop :=
  ∀ (s : State) (nbits w : Nat) (i : Instr),
    decodeTableWord nbits w = some i → step (s.withFetchWord nbits w) = exec i s

/-- R110, R95: there are no exception causes, every event completes in every state at every operand, and an out-of-range width is
clamped: "Every event is total on every reachable state and every legal operand". -/
def Obligations.NothingFaultsAndEveryEventIsTotal : Prop :=
  (∀ _f : Fault, False) ∧ (∀ (i : Instr) (s : State), ∃ t : State, exec i s = .next t) ∧
  (∀ (us : Micros) (s : State), ∃ t : State, exec (.setpw us) s = .next t ∧
    2000 ≤ t.cmpShadow.toNat ∧ t.cmpShadow.toNat ≤ 4000)

/-- "A run is a sequence of events applied one after another to a state" (00_scope.md section 4): `n` steps over the words of `n`
events, whatever waits after them, are those events applied in that order. That they wait in the list `inputs`, from which a
step takes the oldest, is the model's choice (log 4). -/
def Obligations.QueuedWordsRunTheirEventsInOrder : Prop :=
  ∀ (es : List Instr) (rest : List Input) (s : State),
    s.inputs = es.map (fun i => Input.word (encode i)) ++ rest →
    Host.Core.run Sys2Proof.core es.length s = .next { runEvents Config.params es s with inputs := rest }

/-! ## Parameters -/

/-- A machine exists exactly for the parameter sets that meet V1 to V9 (00_scope.md R6), and the machine of this package is the one
for the set the spec fixes. -/
def Obligations.OnlyValidParametersAreInstantiated : Prop :=
  (∀ p : Params, (instantiate p).isSome = true ↔
    (1 ≤ p.clkHz ∧ 1 ≤ p.prescaler ∧ p.frameHz = 50) ∧
    1 ≤ p.clkHz / (p.prescaler * p.frameHz) ∧ p.top < 65536 ∧
    (p.minUs ≤ p.neutralUs ∧ p.neutralUs ≤ p.maxUs ∧ p.neutralUs = p.centerUs) ∧
    p.maxCounts ≤ p.top ∧ 1 ≤ p.minCounts ∧ p.maxUs < 65536 ∧ (1 ≤ p.holdMs ∧ 1 ≤ p.cycleMs) ∧
    p.holdMs - 1 + p.cycleMs < 8192) ∧
  instantiate Config.params = some Sys2Proof.core

/-- 40_frame_generator.md section 1: `conv` is monotone for every parameter set, and clamping the microseconds first gives the same
counts as clamping the counts (the spec derives it where `conv` is exact; it holds wherever `MIN_US ≤ MAX_US`). -/
def Obligations.ConversionIsMonotoneAndClampsEitherWay : Prop :=
  (∀ (p : Params) (u v : Nat), u ≤ v → p.conv u ≤ p.conv v) ∧
  (∀ (p : Params) (u : Nat), p.minUs ≤ p.maxUs → p.clampc (p.conv u) = p.conv (min (max u p.minUs) p.maxUs))

/-- 40_frame_generator.md section 1 (floor is D4): for every valid parameter set a frame of `TOP + 1` ticks is at most 20 ms and
shorter by less than one tick period. -/
def Obligations.FrameIsTwentyMillisecondsWithinOneTick : Prop :=
  ∀ p : Params, p.Valid →
    p.frameClocks * 50 ≤ p.clkHz ∧ p.clkHz < (p.frameClocks + p.prescaler) * 50

/-- No operation wraps (40_frame_generator.md section 1; D4): on every valid parameter set and in every state that meets the
invariants, each number an event computes and stores is the exact number of its pseudocode: RESET's two compare values,
SETPW's and CYCLE's count, TICK's counter, and the hold timer. -/
def Obligations.NoStoredValueWraps : Prop :=
  ∀ (p : Params) (s : State), p.Valid → Inv p s →
    (∀ us : Micros, (setpwEvent p us s).cmpShadow.toNat = p.clampc (p.conv us.toNat)) ∧
    (s.run = true → s.cnt.toNat ≠ p.top → (tickEvent p s).cnt.toNat = s.cnt.toNat + 1) ∧
    (∀ sens : SensorVector, s.st = .active → s.elapsed.toNat + p.cycleMs < p.holdMs →
      (cycleEvent p sens s).elapsed.toNat = s.elapsed.toNat + p.cycleMs) ∧
    (∀ sens : SensorVector,
      (cycleEvent p sens s).cmpShadow.toNat = p.clampc (p.conv (commandUs p (transition p sens (controllerOf s))))) ∧
    (resetEvent p s).cmpShadow.toNat = p.neutralCounts ∧ (resetEvent p s).cmpActive.toNat = p.neutralCounts

/-! ## Invariants -/

/-- The invariants I1 to I7 of 10_state.md section 2 hold in the reset state of every valid parameter set. -/
def Obligations.ResetStateMeetsTheInvariants : Prop :=
  ∀ p : Params, p.Valid → Inv p (State.resetWith p)

/-- Every step of the machine keeps the invariants I1 to I7 (10_state.md section 2) and the range of the prescaler phase. -/
def Obligations.StepKeepsTheInvariants : Prop :=
  ∀ s t : State, Inv Config.params s → step s = .next t → Inv Config.params t

/-- On every valid parameter set, every step of the machine built with it keeps the same invariants (R3 leaves the set open). -/
def Obligations.EveryValidMachineKeepsTheInvariants : Prop :=
  ∀ (p : Params) (s t : State), p.Valid → Inv p s → stepWith p s = .next t → Inv p t

/-- The linking invariant of 10_state.md section 2 (that an external SETPW is admitted is D25): `cmp_shadow` holds the counts of what
the controller's state commands. It holds at reset; every event but an external SETPW keeps it, from every state, and so
does every clock edge without the external strobe, and every run without an external SETPW. -/
def Obligations.ShadowFollowsTheControllerAlone : Prop :=
  ∀ p : Params, p.Valid →
    Linked p (State.resetWith p) ∧
    (∀ (i : Instr) (s : State), (∀ us, i ≠ .setpw us) → Linked p s → Linked p (applyEvent p i s)) ∧
    (∀ (pins : Pins) (s : State), pins.pwWe = false → Linked p s → Linked p (clockEdge p pins s)) ∧
    (∀ (es : List Instr) (s : State), NoExternalWrite es → Linked p s → Linked p (runEvents p es s))

/-! ## Ownership and independence -/

/-- 10_state.md sections 1 and 2 (that an external SETPW is admitted is D25): each element changes only at an event of its owner.
That no event, RESET included, changes `pre` is log 6, and that none changes the waiting inputs is log 4. -/
def Obligations.EachElementChangesOnlyByItsOwner : Prop :=
  ∀ (i : Instr) (s t : State), exec i s = .next t →
    (i ≠ .reset → (∀ v, i ≠ .cycle v) → t.st = s.st ∧ t.sel = s.sel ∧ t.elapsed = s.elapsed ∧ t.ind = s.ind) ∧
    (i ≠ .reset → i ≠ .configure → i ≠ .tick → t.cnt = s.cnt ∧ t.cmpActive = s.cmpActive) ∧
    (i ≠ .reset → i ≠ .configure → t.run = s.run) ∧
    (i ≠ .reset → (∀ us, i ≠ .setpw us) → (∀ v, i ≠ .cycle v) → t.cmpShadow = s.cmpShadow) ∧
    t.pre = s.pre ∧ t.inputs = s.inputs

/-- R107: "The generator never reads controller state; the controller never reads generator state." Two states that agree on one
half agree on it after the same event of that half, and what a CYCLE commands depends on the controller's half alone. -/
def Obligations.HalvesDoNotReadEachOther : Prop :=
  ∀ (i : Instr) (s t s' t' : State), exec i s = .next s' → exec i t = .next t' →
    (controllerOf s = controllerOf t → s.ind = t.ind → controllerOf s' = controllerOf t' ∧ s'.ind = t'.ind) ∧
    ((∀ v, i ≠ .cycle v) → generatorOf s = generatorOf t → generatorOf s' = generatorOf t') ∧
    (∀ v, i = .cycle v → controllerOf s = controllerOf t → s'.cmpShadow = t'.cmpShadow)

/-- In any run without RESET the controller goes through exactly the control cycles of the run, whatever CONFIGURE, SETPW and TICK
events stand between them (R107, R105). -/
def Obligations.ControllerSeesOnlyItsCycles : Prop :=
  ∀ (p : Params) (es : List Instr) (s : State), NoReset es →
    controllerOf (runEvents p es s) = runController p (sensesOf es) (controllerOf s)

/-- The order of a TICK and a CYCLE matters only at a frame boundary, and there only to the width the new frame takes (R34, R36 and
the spec's decisions D22, D33). -/
def Obligations.TickAndCycleCommuteInsideAFrame : Prop :=
  ∀ (p : Params) (sens : SensorVector) (s : State),
    (¬ (s.run = true ∧ s.cnt.toNat = p.top) →
      tickEvent p (cycleEvent p sens s) = cycleEvent p sens (tickEvent p s)) ∧
    tickEvent p (cycleEvent p sens s) =
      { cycleEvent p sens (tickEvent p s) with cmpActive := (tickEvent p (cycleEvent p sens s)).cmpActive }

/-! ## The waveform -/

/-- 40_frame_generator.md section 3 (R67, output polarity and the strict comparison are D7; indicators D24): the outputs of every state. -/
def Obligations.OutputsAreTheFunctionsOfTheState : Prop :=
  ∀ s : State,
    (pwm Config.params s = true ↔ s.run = true ∧ s.cnt.toNat < s.cmpActive.toNat) ∧
    (indActive s = true ↔ s.ind = true) ∧ indReady s = !indActive s

/-- The output polarity is a parameter (93_implementation_defined.md U1): set, it complements `pwm` while `run = 1`, and no event
changes the state differently for it. -/
def Obligations.PolarityOnlyComplementsTheRunningOutput : Prop :=
  ∀ (p : Params) (s : State),
    (s.run = true → pwm { p with polarityInverted := true } s = !pwm { p with polarityInverted := false } s) ∧
    (s.run = false → ∀ b, pwm { p with polarityInverted := b } s = false) ∧
    (∀ b i, applyEvent { p with polarityInverted := b } i s = applyEvent p i s)

/-- Inside a frame (40_frame_generator.md section 3, "Frame structure"): from a frame start, after `k ≤ TOP` ticks with any other
events but RESET among them, `cnt = k`, the width of the frame is untouched, and of those ticks exactly the first
`min k a` found `pwm = 1`. -/
def Obligations.FrameInProgressIsNeverDisturbed : Prop :=
  ∀ (p : Params) (es : List Instr) (s : State),
    p.Valid → p.polarityInverted = false → Inv p s → s.run = true → s.cnt = 0#16 → NoReset es → countTicks es ≤ p.top →
    (runEvents p es s).cnt.toNat = countTicks es ∧ (runEvents p es s).run = true ∧
    (runEvents p es s).cmpActive = s.cmpActive ∧
    highTicks p es s = min (countTicks es) s.cmpActive.toNat

/-- A whole frame (40_frame_generator.md section 3): `TOP + 1` ticks from a frame start with any other events but RESET among them
end at a frame start, hold exactly `cmp_active` high ticks, one falling edge and one rising edge, and the next frame's
width is the value `cmp_shadow` holds at the boundary: no glitch. -/
def Obligations.EveryFrameIsOneWholePulse : Prop :=
  ∀ (p : Params) (es : List Instr) (s : State),
    p.Valid → p.polarityInverted = false → Inv p s → s.run = true → s.cnt = 0#16 → NoReset es → countTicks es = p.top →
    let t := runEvents p (es ++ [.tick]) s
    t.cnt = 0#16 ∧ t.run = true ∧ t.cmpActive = (runEvents p es s).cmpShadow ∧ t.cmpShadow = (runEvents p es s).cmpShadow ∧
    pwm p t = true ∧
    highTicks p (es ++ [.tick]) s = s.cmpActive.toNat ∧
    fallingEdges p (es ++ [.tick]) s = 1 ∧ risingEdges p (es ++ [.tick]) s = 1

/-- When a write takes effect, and the last write wins (40_frame_generator.md section 3; the exact instant is D8): whatever came
before it in the frame, a SETPW followed by no other command up to the frame boundary leaves the frame in progress its
width and gives the next frame its own. -/
def Obligations.LastWriteShapesTheNextFrame : Prop :=
  ∀ (p : Params) (us : Micros) (es ls : List Instr) (s : State),
    p.Valid → Inv p s → s.run = true → NoReset es → NoCommand ls →
    s.cnt.toNat + countTicks es + countTicks ls = p.top →
    (runEvents p (es ++ .setpw us :: ls) s).cmpActive = s.cmpActive ∧
    (runEvents p (es ++ .setpw us :: ls ++ [.tick]) s).cnt = 0#16 ∧
    (runEvents p (es ++ .setpw us :: ls ++ [.tick]) s).cmpActive.toNat = p.clampc (p.conv us.toNat)

/-- SETPW is idempotent in every state (40_frame_generator.md section 3; 20_memory.md section 3). -/
def Obligations.RepeatedSetpwChangesNothing : Prop :=
  ∀ (us : Micros) (s t : State), exec (.setpw us) s = .next t → exec (.setpw us) t = .next t

/-- Until CONFIGURE the output pin carries no pulse, whatever else happens (70_reset_and_hazards.md section 1; D9, D11). -/
def Obligations.NoPulseBeforeConfigure : Prop :=
  ∀ (p : Params) (es : List Instr), Instr.configure ∉ es →
    (runEvents p es (State.resetWith p)).cnt = 0#16 ∧ (runEvents p es (State.resetWith p)).run = false ∧
    pwm p (runEvents p es (State.resetWith p)) = false

/-! ## The hold -/

/-- The hold is not re-entrant (41_motion_controller.md section 4; D27): in ACTIVE no sensor vector makes any difference. -/
def Obligations.SensorsAreIgnoredDuringAHold : Prop :=
  ∀ (v v' : SensorVector) (s : State), s.st = .active → exec (.cycle v) s = exec (.cycle v') s

/-- Length of a hold (41_motion_controller.md section 4; rounding up is D28): from `ACTIVE(s, t)`, whatever the sensors show, the
controller stays in ACTIVE with the same sensor and a timer at `t + k × CYCLE_MS` for every `k` below
`ceil((HOLD_MS - t) / CYCLE_MS)`, and is in READY after exactly that many cycles. -/
def Obligations.HoldEndsAfterExactlyItsCycles : Prop :=
  ∀ (p : Params) (vs : List SensorVector) (c : Controller), p.Valid → CtlInv p c → c.st = .active →
    (vs.length * p.cycleMs < p.holdMs - c.elapsed.toNat →
      (runController p vs c).st = .active ∧ (runController p vs c).sel = c.sel ∧
      (runController p vs c).elapsed.toNat = c.elapsed.toNat + vs.length * p.cycleMs) ∧
    (vs.length = Params.ceilDiv (p.holdMs - c.elapsed.toNat) p.cycleMs →
      runController p vs c = ⟨.ready, .left, 0#13⟩)

/-- "CENTER detected at t=0, HOLD_DURATION=5000 ms, cycle=50 ms ⇒ exactly 100 cycles" (41_motion_controller.md section 4): from READY
a cycle with a detection and then any 99 cycles, with any other events but RESET among them, end in ACTIVE with the
arbitrated sensor and `elapsed` 4950; one cycle more, and the machine is in READY. -/
def Obligations.DetectionHoldsForOneHundredCycles : Prop :=
  ∀ (v w : SensorVector) (es : List Instr) (s : State) (d : Sensor),
    s.st = .ready → prio v = some d → NoReset es → (sensesOf es).length = 99 →
    let t := runEvents Config.params (.cycle v :: es) s
    (t.st = .active ∧ t.sel = d ∧ t.elapsed.toNat = 4950) ∧
    (cycleEvent Config.params w t).st = .ready ∧ (cycleEvent Config.params w t).ind = false ∧
    (cycleEvent Config.params w t).cmpShadow = 3000#16

/-- The hold timer as a decrement (41_motion_controller.md section 4; D12): a controller that stores `remaining` is the same machine
under the bijection, at every valid parameter set. That its timer holds 0 in READY is the model's choice (log 28). -/
def Obligations.DownCountingTimerIsTheSameMachine : Prop :=
  ∀ p : Params, p.Valid →
    (∀ (v : SensorVector) (c : Controller), CtlInv p c →
      toDown p (transition p v c) = downTransition p v (toDown p c)) ∧
    (∀ c : Controller, CtlInv p c → c.st = .active → 1 ≤ remaining p c ∧ remaining p c ≤ p.holdMs) ∧
    (∀ c c' : Controller, CtlInv p c → CtlInv p c' → toDown p c = toDown p c' → c = c')

/-- The hold timer as a count of cycles (41_motion_controller.md section 4; D12): a controller that stores `n` and compares `n + 1`
with `HOLD_CYCLES` is the same machine. -/
def Obligations.CycleCountingTimerIsTheSameMachine : Prop :=
  ∀ p : Params, p.Valid →
    (∀ (v : SensorVector) (c : Controller), CtlInv p c →
      toCount p (transition p v c) = countTransition p v (toCount p c)) ∧
    (∀ c : Controller, CtlInv p c → c.st = .active →
      c.elapsed.toNat = cycleCount p c * p.cycleMs ∧ cycleCount p c < p.holdCycles)

/-- Idempotent re-assertion (41_motion_controller.md section 4): a CYCLE repairs whatever was written to `cmp_shadow` and `ind` since
the last one, and where nothing was, a cycle that keeps `st` and `sel` leaves both as they are. -/
def Obligations.CycleSelfCorrectsItsOutputs : Prop :=
  (∀ (v : SensorVector) (s : State) (c : Count) (b : Bool),
    exec (.cycle v) { s with cmpShadow := c, ind := b } = exec (.cycle v) s) ∧
  (∀ (v : SensorVector) (s t : State), Inv Config.params s → Linked Config.params s →
    exec (.cycle v) s = .next t → t.st = s.st → t.sel = s.sel → t.cmpShadow = s.cmpShadow ∧ t.ind = s.ind)

/-- R86: the pulse-width map, in microseconds and in counts after SETPW; ACTIVE(CENTER, t) and READY command the same width and
differ in the indicator; and along every sequence of cycles the controller's output
stream holds the neutral width with "ready", the three sensors' widths with "active", and nothing else. -/
def Obligations.ControllerCommandsTheMappedWidths : Prop :=
  (usOf Config.params .left = 1000 ∧ usOf Config.params .center = 1500 ∧ usOf Config.params .right = 2000) ∧
  (∀ t : Elapsed, commandUs Config.params ⟨.active, .center, t⟩ = commandUs Config.params readyController ∧
    commandIndicator ⟨.active, .center, t⟩ = !commandIndicator readyController) ∧
  (∀ s : State, (setPulseWidth Config.params (usOf Config.params .left) s).cmpShadow = 2000#16 ∧
    (setPulseWidth Config.params (usOf Config.params .center) s).cmpShadow = 3000#16 ∧
    (setPulseWidth Config.params (usOf Config.params .right) s).cmpShadow = 4000#16) ∧
  (∀ (vs : List SensorVector) (c : Controller) (u : Nat) (b : Bool), (u, b) ∈ commandTrace Config.params vs c →
    (b = false ∧ u = 1500) ∨ (b = true ∧ (u = 1000 ∨ u = 1500 ∨ u = 2000)))

/-- The 16-bit tuple and the inductive view of the controller (10_state.md section 1, 30_encoding.md section 1; D16) lose nothing. -/
def Obligations.ControllerViewsLoseNothing : Prop :=
  (∀ c : Controller, unpackController (packController c) = some c) ∧
  packController readyController = 0#16 ∧
  (∀ c : Controller, ReadyCanonical c → ofView (viewOf c) = c)

/-! ## The port-level binding -/

/-- 30_encoding.md section 4 (D21): a rising edge of `clk` is its event sequence, in the order configure, external write, control
cycle, tick, or reset alone; and it moves the prescaler phase. -/
def Obligations.ClockEdgeIsItsEventSequence : Prop :=
  ∀ (p : Params) (pins : Pins) (s : State),
    clockEdge p pins s = { runEvents p (edgeEvents p pins s) s with pre := (clockEdge p pins s).pre } ∧
    (clockEdge p pins s).pre =
      (if pins.rst = true then 0
       else if pins.cfg = true ∧ s.run = false then 0
       else if s.run = false then s.pre
       else if s.pre = p.prescaler - 1 then 0
       else s.pre + 1)

/-- 60_exceptions.md section 1 and 30_encoding.md section 4 (D21): `rst` overrides every other strobe. -/
def Obligations.ResetPinOverridesEveryStrobe : Prop :=
  ∀ (pins : Pins) (s : State), pins.rst = true →
    clockEdge Config.params pins s = { State.reset with inputs := s.inputs }

/-- 30_encoding.md section 4: one TICK every `PRESCALER` edges: from phase 0, fewer quiet edges move the phase only, `PRESCALER` of
them are one TICK; and the first TICK comes `PRESCALER` edges after the edge that starts the timer. -/
def Obligations.OneTickEveryPrescalerEdges : Prop :=
  ∀ (p : Params) (s : State), p.Valid →
    (s.run = true → s.pre = 0 →
      (∀ k, k < p.prescaler → runEdges p (List.replicate k quietPins) s = { s with pre := k }) ∧
      runEdges p (List.replicate p.prescaler quietPins) s = tickEvent p s) ∧
    (s.run = false →
      runEdges p ({ quietPins with cfg := true } :: List.replicate p.prescaler quietPins) s =
        tickEvent p { configureEvent s with pre := 0 })

/-- 30_encoding.md section 4: a frame lasts `(TOP + 1) × PRESCALER` clocks, 320000 for the parameters the spec fixes: from a frame
start at phase 0, that many quiet edges end at the next frame start, with the buffered width taken. -/
def Obligations.FrameLastsItsClocks : Prop :=
  (∀ (p : Params) (s : State), p.Valid → s.run = true → s.pre = 0 → s.cnt = 0#16 →
    runEdges p (List.replicate p.frameClocks quietPins) s = { s with cmpActive := s.cmpShadow }) ∧
  Config.params.frameClocks = 320000

/-! ## The text form -/

/-- 30_encoding.md section 3 (D20; blanks are log 13): reading the text of an event gives it back, at every operand value, and a text
of such lines is the run of its events. -/
def Obligations.TextOfEventsReadsBack : Prop :=
  (∀ i : Instr, parseLine (printEvent i) = some (.event i)) ∧
  (∀ (p : Params) (es : List Instr), assemble p (es.map printEvent) = some es)

/-- 30_encoding.md section 3 (D20): the pseudo-event FRAME, from a frame start of a running timer, ends exactly at the next frame
start, with the buffered width taken and nothing else changed. -/
def Obligations.FramePseudoEventIsOneFrame : Prop :=
  ∀ (p : Params) (s : State), p.Valid → s.run = true → s.cnt = 0#16 →
    runEvents p (expand p .frame) s = { s with cmpActive := s.cmpShadow }

/-! ## Further statements on control cycles and the composition -/

/-- R81, R82, R83: `prio` picks the highest-priority detected sensor, LEFT over CENTER over RIGHT; from READY with a detection a CYCLE
goes to ACTIVE with that sensor and a timer at 0; with none, in READY (whose encoding is `READY`, 0, 0), it leaves `st`,
`sel` and `elapsed` unchanged. -/
def Obligations.ArbitrationAndReadyTransitions : Prop :=
  ∀ sens : SensorVector,
    (sens.getLsbD 2 = true → prio sens = some .left) ∧
    (sens.getLsbD 2 = false → sens.getLsbD 1 = true → prio sens = some .center) ∧
    (sens.getLsbD 2 = false → sens.getLsbD 1 = false → sens.getLsbD 0 = true → prio sens = some .right) ∧
    (sens = 0b000#3 ↔ prio sens = none) ∧
    (∀ (s : State) (d : Sensor), s.st = .ready → prio sens = some d →
      ∃ t : State, exec (.cycle sens) s = .next t ∧ t.st = .active ∧ t.sel = d ∧ t.elapsed = 0#13) ∧
    (∀ s : State, s.st = .ready → s.sel = .left → s.elapsed = 0#13 → prio sens = none →
      ∃ t : State, exec (.cycle sens) s = .next t ∧ t.st = s.st ∧ t.sel = s.sel ∧ t.elapsed = s.elapsed)

/-- Over legal inputs no step stops (30_encoding.md section 2, D19; 60_exceptions.md section 1): it answers a next state, which waits
for the rest of the same inputs, so no later step stops either. That a step takes the oldest of the waiting inputs is the
model's choice (log 4), and so is that it idles where none waits (log 5). -/
def Obligations.LegalInputsNeverStopTheMachine : Prop :=
  ∀ s : State, SafeInputs s → ∃ t : State, step s = .next t ∧ t.inputs = s.inputs.tail ∧ SafeInputs t

/-- The two halves compose to the machine (42_system_and_boundary.md section 3): along every run the controller's half goes as the
controller machine does on its own RESET and CYCLE events; the generator's half goes as the generator machine does on its
own events, the CYCLEs being SETPWs of the controller's output stream, which holds a pair for each; and the outputs are
those of the two machines. That the generator machine's SETPW takes any natural number is log 27. -/
def Obligations.HalvesComposeToTheMachine : Prop :=
  ∀ (p : Params) (es : List Instr) (s : State),
    let out := unitTrace p (unitEvents es) (unitOf s)
    let u := runUnit p (unitEvents es) (unitOf s)
    let g := runGenerator p (feed es out) (generatorOf s)
    unitOf (runEvents p es s) = u ∧ generatorOf (runEvents p es s) = g ∧
    out.length = (sensesOf es).length ∧ (feed es out).length = es.length ∧
    outputs p (runEvents p es s) = { pwm := generatorPwm p g, indActive := u.ind, indReady := !u.ind }

/-! ## Infinite runs -/

/-- Every state of every infinite run after its first RESET meets the invariants (10_state.md section 2; 42_system_and_boundary.md
section 3), and is the state after the finite prefix of the run; the state before RESET shows in `pre` and the waiting inputs
only, which are no state of R10 (log 6, log 4). -/
def Obligations.EveryRunMeetsTheInvariants : Prop :=
  ∀ (p : Params) (sched : Schedule) (s : State) (n : Nat), p.Valid → PhaseInRange p s → IsInfiniteRun sched →
    Inv p (stateAt p sched s (n + 1)) ∧
    stateAt p sched s (n + 1) = runEvents p (prefixOf sched (n + 1)) s ∧
    stateAt p sched s (n + 1) = { stateAt p sched (State.resetWith p) (n + 1) with pre := s.pre, inputs := s.inputs }

/-- Under fairness (42_system_and_boundary.md section 3, D22) no hold lasts for ever, whatever the sensors show and from every
state: again and again the controller is in READY with neutral and "ready" commanded (D15). -/
def Obligations.FairRunReturnsToReady : Prop :=
  ∀ (p : Params) (sched : Schedule) (s : State) (n : Nat), p.Valid → Fair sched →
    ∃ m, n < m ∧ (stateAt p sched s m).st = .ready ∧ (stateAt p sched s m).ind = false ∧
      (stateAt p sched s m).cmpShadow.toNat = p.neutralCounts

/-- Under fairness and without RESET (42_system_and_boundary.md section 3, D22; the pulse train is "continuous",
40_frame_generator.md section 3) a running timer starts frames for ever: again and again a TICK finds `cnt = TOP`, clears it,
takes the commanded width (D8) and raises the output. -/
def Obligations.FairRunStartsFramesForEver : Prop :=
  ∀ (p : Params) (sched : Schedule) (s : State) (n : Nat), p.Valid → p.polarityInverted = false → Fair sched →
    (∀ k, sched k ≠ .reset) → Inv p s → s.run = true →
    ∃ m, n ≤ m ∧ sched m = .tick ∧ (stateAt p sched s m).cnt.toNat = p.top ∧
      (stateAt p sched s (m + 1)).cnt = 0#16 ∧
      (stateAt p sched s (m + 1)).cmpActive = (stateAt p sched s m).cmpShadow ∧
      pwm p (stateAt p sched s (m + 1)) = true

/-- The nominal schedule (42_system_and_boundary.md section 3), at every phase of its first CYCLE and over every draw of the
sensors, is a fair run, wherever a control period is at least one tick; its prefixes of whole periods are the finite pieces
of `nominalRun`; and for the parameters the spec fixes a CYCLE comes every 100000 ticks. How the piece begins and ends is
log 26. -/
def Obligations.NominalScheduleIsAFairRun : Prop :=
  (∀ (p : Params) (phase : Nat) (senses : Nat → SensorVector), 1 ≤ nominalTicks p →
    IsInfiniteRun (nominalSchedule p phase senses) ∧ Fair (nominalSchedule p phase senses)) ∧
  (∀ (p : Params) (phase : Nat) (senses : Nat → SensorVector) (n : Nat),
    prefixOf (nominalSchedule p phase senses) (2 + phase + n * (nominalTicks p + 1)) =
      nominalRun p phase ((List.range n).map senses)) ∧
  nominalTicks Config.params = 100000
end

