-- ==== Sys2Proof/Laws/Decode.lean ====
section
/-!
SUPPORT. The fields of event words: what the two field extractions and the pairing of them give (spec 30_encoding.md R49), and what
a match and mask row says of the fields (R50).
-/

namespace Sys2Proof

/-- The fields as numbers. -/
theorem opField_toNat (w : EventWord) : (opField w).toNat = w.toNat / 65536 := by
  have := w.isLt
  simp only [opField, BitVec.extractLsb'_toNat, Nat.shiftRight_eq_div_pow]
  omega

theorem argField_toNat (w : EventWord) : (argField w).toNat = w.toNat % 65536 := by
  simp [argField, BitVec.extractLsb'_toNat]

theorem eventWord_toNat (o : BitVec 4) (a : BitVec 16) : (eventWord o a).toNat = o.toNat * 65536 + a.toNat := by
  have := o.isLt
  have := a.isLt
  simp only [eventWord, BitVec.toNat_ofNat]
  omega

@[simp] theorem opField_eventWord (o : BitVec 4) (a : BitVec 16) : opField (eventWord o a) = o := by
  have := a.isLt
  apply BitVec.eq_of_toNat_eq
  rw [opField_toNat, eventWord_toNat]
  omega

@[simp] theorem argField_eventWord (o : BitVec 4) (a : BitVec 16) : argField (eventWord o a) = a := by
  have := a.isLt
  apply BitVec.eq_of_toNat_eq
  rw [argField_toNat, eventWord_toNat]
  omega

/-- A word is the pair of its fields. -/
theorem eventWord_fields (w : EventWord) : eventWord (opField w) (argField w) = w := by
  apply BitVec.eq_of_toNat_eq
  rw [eventWord_toNat, opField_toNat, argField_toNat]
  omega

/-- Two words with the same fields are the same word. -/
theorem eventWord_ext {w w' : EventWord} (ho : opField w = opField w') (ha : argField w = argField w') : w = w' := by
  rw [← eventWord_fields w, ← eventWord_fields w', ho, ha]

/-- A mask of ones from bit `k` up keeps the bits from `k` up: the number less its remainder. -/
theorem toNat_and_highMask (w : EventWord) {k : Nat} (hk : k ≤ 20) :
    (w &&& BitVec.ofNat 20 (2 ^ 20 - 2 ^ k)).toNat = w.toNat / 2 ^ k * 2 ^ k := by
  have hm : ∀ k, k ≤ 20 → ∀ i, i < 20 → (BitVec.ofNat 20 (2 ^ 20 - 2 ^ k)).getLsbD i = decide (k ≤ i) := by decide
  have h2 : w.toNat / 2 ^ k * 2 ^ k = w.toNat >>> k <<< k := by
    rw [Nat.shiftRight_eq_div_pow, Nat.shiftLeft_eq]
  rw [h2]
  apply Nat.eq_of_testBit_eq
  intro i
  rw [Nat.testBit_shiftLeft, Nat.testBit_shiftRight]
  by_cases hi : i < 20
  · have := hm k hk i hi
    rw [BitVec.testBit_toNat, BitVec.getLsbD_and, this]
    by_cases hki : k ≤ i
    · have e : k + (i - k) = i := by omega
      simp [hki, e, BitVec.testBit_toNat]
    · simp [hki]
  · have e : (w &&& BitVec.ofNat 20 (2 ^ 20 - 2 ^ k)).toNat.testBit i = false :=
      Nat.testBit_lt_two_pow (Nat.lt_of_lt_of_le (BitVec.isLt _) (Nat.pow_le_pow_right (by decide) (by omega)))
    rw [e]
    by_cases hki : k ≤ i
    · have e' : k + (i - k) = i := by omega
      have : w.toNat.testBit i = false :=
        Nat.testBit_lt_two_pow (Nat.lt_of_lt_of_le w.isLt (Nat.pow_le_pow_right (by decide) (by omega)))
      simp [hki, e', this]
    · simp [hki]

/-- What a row with a mask of ones from bit `k` up covers. -/
theorem covers_highMask_iff (w m : EventWord) {k : Nat} (hk : k ≤ 20) :
    OpcodeRow.covers ⟨m, BitVec.ofNat 20 (2 ^ 20 - 2 ^ k)⟩ w = true ↔ w.toNat / 2 ^ k * 2 ^ k = m.toNat := by
  simp only [OpcodeRow.covers, beq_iff_eq]
  rw [← toNat_and_highMask w hk]
  exact ⟨fun h => congrArg BitVec.toNat h, BitVec.eq_of_toNat_eq⟩

/-- The five rows as ranges of numbers (R50). -/
theorem rowReset_covers_iff (w : EventWord) : rowReset.covers w = true ↔ w.toNat = 0 := by
  have h := covers_highMask_iff w 0x00000#20 (k := 0) (by decide)
  have e : (0x00000#20).toNat = 0 := by decide
  rw [e] at h
  exact h.trans (by omega)

theorem rowConfigure_covers_iff (w : EventWord) : rowConfigure.covers w = true ↔ w.toNat = 65536 := by
  have h := covers_highMask_iff w 0x10000#20 (k := 0) (by decide)
  have e : (0x10000#20).toNat = 65536 := by decide
  rw [e] at h
  exact h.trans (by omega)

theorem rowSetpw_covers_iff (w : EventWord) : rowSetpw.covers w = true ↔ w.toNat / 65536 = 2 := by
  have h := covers_highMask_iff w 0x20000#20 (k := 16) (by decide)
  have e : (0x20000#20).toNat = 131072 := by decide
  rw [e] at h
  exact h.trans (by omega)

theorem rowTick_covers_iff (w : EventWord) : rowTick.covers w = true ↔ w.toNat = 196608 := by
  have h := covers_highMask_iff w 0x30000#20 (k := 0) (by decide)
  have e : (0x30000#20).toNat = 196608 := by decide
  rw [e] at h
  exact h.trans (by omega)

theorem rowCycle_covers_iff (w : EventWord) : rowCycle.covers w = true ↔ w.toNat / 8 = 32768 := by
  have h := covers_highMask_iff w 0x40000#20 (k := 3) (by decide)
  have e : (0x40000#20).toNat = 262144 := by decide
  rw [e] at h
  exact h.trans (by omega)

end Sys2Proof
end

