-- ==== Sys2Proof/Laws/State.lean ====
section
/-!
SUPPORT. One lemma per field per update of the state, each true by unfolding, so that no later proof unfolds a record
update.
-/

namespace Sys2Proof.Machine

variable (s : State)

@[simp] theorem setPulseWidth_cnt (p : Params) (us : Nat) : (setPulseWidth p us s).cnt = s.cnt := rfl
@[simp] theorem setPulseWidth_cmpShadow (p : Params) (us : Nat) : (setPulseWidth p us s).cmpShadow = BitVec.ofNat 16 (p.clampc (p.conv us)) := rfl
@[simp] theorem setPulseWidth_cmpActive (p : Params) (us : Nat) : (setPulseWidth p us s).cmpActive = s.cmpActive := rfl
@[simp] theorem setPulseWidth_run (p : Params) (us : Nat) : (setPulseWidth p us s).run = s.run := rfl
@[simp] theorem setPulseWidth_st (p : Params) (us : Nat) : (setPulseWidth p us s).st = s.st := rfl
@[simp] theorem setPulseWidth_sel (p : Params) (us : Nat) : (setPulseWidth p us s).sel = s.sel := rfl
@[simp] theorem setPulseWidth_elapsed (p : Params) (us : Nat) : (setPulseWidth p us s).elapsed = s.elapsed := rfl
@[simp] theorem setPulseWidth_ind (p : Params) (us : Nat) : (setPulseWidth p us s).ind = s.ind := rfl
@[simp] theorem setPulseWidth_pre (p : Params) (us : Nat) : (setPulseWidth p us s).pre = s.pre := rfl
@[simp] theorem setPulseWidth_inputs (p : Params) (us : Nat) : (setPulseWidth p us s).inputs = s.inputs := rfl

@[simp] theorem setIndicator_cnt (active : Bool) : (setIndicator active s).cnt = s.cnt := rfl
@[simp] theorem setIndicator_cmpShadow (active : Bool) : (setIndicator active s).cmpShadow = s.cmpShadow := rfl
@[simp] theorem setIndicator_cmpActive (active : Bool) : (setIndicator active s).cmpActive = s.cmpActive := rfl
@[simp] theorem setIndicator_run (active : Bool) : (setIndicator active s).run = s.run := rfl
@[simp] theorem setIndicator_st (active : Bool) : (setIndicator active s).st = s.st := rfl
@[simp] theorem setIndicator_sel (active : Bool) : (setIndicator active s).sel = s.sel := rfl
@[simp] theorem setIndicator_elapsed (active : Bool) : (setIndicator active s).elapsed = s.elapsed := rfl
@[simp] theorem setIndicator_ind (active : Bool) : (setIndicator active s).ind = active := rfl
@[simp] theorem setIndicator_pre (active : Bool) : (setIndicator active s).pre = s.pre := rfl
@[simp] theorem setIndicator_inputs (active : Bool) : (setIndicator active s).inputs = s.inputs := rfl

@[simp] theorem sleep_cnt (ms : Nat) : (sleep ms s).cnt = s.cnt := rfl
@[simp] theorem sleep_cmpShadow (ms : Nat) : (sleep ms s).cmpShadow = s.cmpShadow := rfl
@[simp] theorem sleep_cmpActive (ms : Nat) : (sleep ms s).cmpActive = s.cmpActive := rfl
@[simp] theorem sleep_run (ms : Nat) : (sleep ms s).run = s.run := rfl
@[simp] theorem sleep_st (ms : Nat) : (sleep ms s).st = s.st := rfl
@[simp] theorem sleep_sel (ms : Nat) : (sleep ms s).sel = s.sel := rfl
@[simp] theorem sleep_elapsed (ms : Nat) : (sleep ms s).elapsed = s.elapsed := rfl
@[simp] theorem sleep_ind (ms : Nat) : (sleep ms s).ind = s.ind := rfl
@[simp] theorem sleep_pre (ms : Nat) : (sleep ms s).pre = s.pre := rfl
@[simp] theorem sleep_inputs (ms : Nat) : (sleep ms s).inputs = s.inputs := rfl

@[simp] theorem startFrame_cnt : (startFrame s).cnt = 0 := rfl
@[simp] theorem startFrame_cmpShadow : (startFrame s).cmpShadow = s.cmpShadow := rfl
@[simp] theorem startFrame_cmpActive : (startFrame s).cmpActive = s.cmpShadow := rfl
@[simp] theorem startFrame_run : (startFrame s).run = s.run := rfl
@[simp] theorem startFrame_st : (startFrame s).st = s.st := rfl
@[simp] theorem startFrame_sel : (startFrame s).sel = s.sel := rfl
@[simp] theorem startFrame_elapsed : (startFrame s).elapsed = s.elapsed := rfl
@[simp] theorem startFrame_ind : (startFrame s).ind = s.ind := rfl
@[simp] theorem startFrame_pre : (startFrame s).pre = s.pre := rfl
@[simp] theorem startFrame_inputs : (startFrame s).inputs = s.inputs := rfl

@[simp] theorem advanceCount_cnt : (advanceCount s).cnt = BitVec.ofNat 16 (s.cnt.toNat + 1) := rfl
@[simp] theorem advanceCount_cmpShadow : (advanceCount s).cmpShadow = s.cmpShadow := rfl
@[simp] theorem advanceCount_cmpActive : (advanceCount s).cmpActive = s.cmpActive := rfl
@[simp] theorem advanceCount_run : (advanceCount s).run = s.run := rfl
@[simp] theorem advanceCount_st : (advanceCount s).st = s.st := rfl
@[simp] theorem advanceCount_sel : (advanceCount s).sel = s.sel := rfl
@[simp] theorem advanceCount_elapsed : (advanceCount s).elapsed = s.elapsed := rfl
@[simp] theorem advanceCount_ind : (advanceCount s).ind = s.ind := rfl
@[simp] theorem advanceCount_pre : (advanceCount s).pre = s.pre := rfl
@[simp] theorem advanceCount_inputs : (advanceCount s).inputs = s.inputs := rfl

@[simp] theorem setController_cnt (c : Controller) : (setController c s).cnt = s.cnt := rfl
@[simp] theorem setController_cmpShadow (c : Controller) : (setController c s).cmpShadow = s.cmpShadow := rfl
@[simp] theorem setController_cmpActive (c : Controller) : (setController c s).cmpActive = s.cmpActive := rfl
@[simp] theorem setController_run (c : Controller) : (setController c s).run = s.run := rfl
@[simp] theorem setController_st (c : Controller) : (setController c s).st = c.st := rfl
@[simp] theorem setController_sel (c : Controller) : (setController c s).sel = c.sel := rfl
@[simp] theorem setController_elapsed (c : Controller) : (setController c s).elapsed = c.elapsed := rfl
@[simp] theorem setController_ind (c : Controller) : (setController c s).ind = s.ind := rfl
@[simp] theorem setController_pre (c : Controller) : (setController c s).pre = s.pre := rfl
@[simp] theorem setController_inputs (c : Controller) : (setController c s).inputs = s.inputs := rfl

@[simp] theorem setInputs_cnt (rest : List Input) : (setInputs rest s).cnt = s.cnt := rfl
@[simp] theorem setInputs_cmpShadow (rest : List Input) : (setInputs rest s).cmpShadow = s.cmpShadow := rfl
@[simp] theorem setInputs_cmpActive (rest : List Input) : (setInputs rest s).cmpActive = s.cmpActive := rfl
@[simp] theorem setInputs_run (rest : List Input) : (setInputs rest s).run = s.run := rfl
@[simp] theorem setInputs_st (rest : List Input) : (setInputs rest s).st = s.st := rfl
@[simp] theorem setInputs_sel (rest : List Input) : (setInputs rest s).sel = s.sel := rfl
@[simp] theorem setInputs_elapsed (rest : List Input) : (setInputs rest s).elapsed = s.elapsed := rfl
@[simp] theorem setInputs_ind (rest : List Input) : (setInputs rest s).ind = s.ind := rfl
@[simp] theorem setInputs_pre (rest : List Input) : (setInputs rest s).pre = s.pre := rfl
@[simp] theorem setInputs_inputs (rest : List Input) : (setInputs rest s).inputs = rest := rfl

@[simp] theorem pushInput_cnt (q : Input) : (pushInput q s).cnt = s.cnt := rfl
@[simp] theorem pushInput_cmpShadow (q : Input) : (pushInput q s).cmpShadow = s.cmpShadow := rfl
@[simp] theorem pushInput_cmpActive (q : Input) : (pushInput q s).cmpActive = s.cmpActive := rfl
@[simp] theorem pushInput_run (q : Input) : (pushInput q s).run = s.run := rfl
@[simp] theorem pushInput_st (q : Input) : (pushInput q s).st = s.st := rfl
@[simp] theorem pushInput_sel (q : Input) : (pushInput q s).sel = s.sel := rfl
@[simp] theorem pushInput_elapsed (q : Input) : (pushInput q s).elapsed = s.elapsed := rfl
@[simp] theorem pushInput_ind (q : Input) : (pushInput q s).ind = s.ind := rfl
@[simp] theorem pushInput_pre (q : Input) : (pushInput q s).pre = s.pre := rfl
@[simp] theorem pushInput_inputs (q : Input) : (pushInput q s).inputs = q :: s.inputs := rfl

@[simp] theorem resetEvent_cnt (p : Params) : (resetEvent p s).cnt = 0 := rfl
@[simp] theorem resetEvent_cmpShadow (p : Params) : (resetEvent p s).cmpShadow = BitVec.ofNat 16 p.neutralCounts := rfl
@[simp] theorem resetEvent_cmpActive (p : Params) : (resetEvent p s).cmpActive = BitVec.ofNat 16 p.neutralCounts := rfl
@[simp] theorem resetEvent_run (p : Params) : (resetEvent p s).run = false := rfl
@[simp] theorem resetEvent_st (p : Params) : (resetEvent p s).st = .ready := rfl
@[simp] theorem resetEvent_sel (p : Params) : (resetEvent p s).sel = .left := rfl
@[simp] theorem resetEvent_elapsed (p : Params) : (resetEvent p s).elapsed = 0 := rfl
@[simp] theorem resetEvent_ind (p : Params) : (resetEvent p s).ind = false := rfl
@[simp] theorem resetEvent_pre (p : Params) : (resetEvent p s).pre = s.pre := rfl
@[simp] theorem resetEvent_inputs (p : Params) : (resetEvent p s).inputs = s.inputs := rfl

@[simp] theorem armTimer_cnt : (armTimer s).cnt = s.cnt := rfl
@[simp] theorem armTimer_cmpShadow : (armTimer s).cmpShadow = s.cmpShadow := rfl
@[simp] theorem armTimer_cmpActive : (armTimer s).cmpActive = s.cmpActive := rfl
@[simp] theorem armTimer_run : (armTimer s).run = true := rfl
@[simp] theorem armTimer_st : (armTimer s).st = s.st := rfl
@[simp] theorem armTimer_sel : (armTimer s).sel = s.sel := rfl
@[simp] theorem armTimer_elapsed : (armTimer s).elapsed = s.elapsed := rfl
@[simp] theorem armTimer_ind : (armTimer s).ind = s.ind := rfl
@[simp] theorem armTimer_pre : (armTimer s).pre = s.pre := rfl
@[simp] theorem armTimer_inputs : (armTimer s).inputs = s.inputs := rfl

@[simp] theorem setPre_cnt (n : Nat) : (setPre n s).cnt = s.cnt := rfl
@[simp] theorem setPre_cmpShadow (n : Nat) : (setPre n s).cmpShadow = s.cmpShadow := rfl
@[simp] theorem setPre_cmpActive (n : Nat) : (setPre n s).cmpActive = s.cmpActive := rfl
@[simp] theorem setPre_run (n : Nat) : (setPre n s).run = s.run := rfl
@[simp] theorem setPre_st (n : Nat) : (setPre n s).st = s.st := rfl
@[simp] theorem setPre_sel (n : Nat) : (setPre n s).sel = s.sel := rfl
@[simp] theorem setPre_elapsed (n : Nat) : (setPre n s).elapsed = s.elapsed := rfl
@[simp] theorem setPre_ind (n : Nat) : (setPre n s).ind = s.ind := rfl
@[simp] theorem setPre_pre (n : Nat) : (setPre n s).pre = n := rfl
@[simp] theorem setPre_inputs (n : Nat) : (setPre n s).inputs = s.inputs := rfl

@[simp] theorem controllerOf_setController (c : Controller) : controllerOf (setController c s) = c := rfl

@[simp] theorem setController_controllerOf : setController (controllerOf s) s = s := rfl

@[simp] theorem controllerOf_setPulseWidth (p : Params) (us : Nat) :
    controllerOf (setPulseWidth p us s) = controllerOf s := rfl

@[simp] theorem controllerOf_setIndicator (b : Bool) : controllerOf (setIndicator b s) = controllerOf s := rfl

@[simp] theorem controllerOf_startFrame : controllerOf (startFrame s) = controllerOf s := rfl

@[simp] theorem controllerOf_advanceCount : controllerOf (advanceCount s) = controllerOf s := rfl

@[simp] theorem controllerOf_armTimer : controllerOf (armTimer s) = controllerOf s := rfl

@[simp] theorem controllerOf_setPre (n : Nat) : controllerOf (setPre n s) = controllerOf s := rfl

@[simp] theorem controllerOf_setInputs (rest : List Input) : controllerOf (setInputs rest s) = controllerOf s := rfl

/-- Two states are equal when all ten fields are. -/
theorem state_ext_fields {s t : State} (h1 : s.cnt = t.cnt) (h2 : s.cmpShadow = t.cmpShadow)
    (h3 : s.cmpActive = t.cmpActive) (h4 : s.run = t.run) (h5 : s.st = t.st) (h6 : s.sel = t.sel)
    (h7 : s.elapsed = t.elapsed) (h8 : s.ind = t.ind) (h9 : s.pre = t.pre) (h10 : s.inputs = t.inputs) : s = t := by
  cases s
  cases t
  simp_all

end Sys2Proof.Machine
end

