-- ==== Sys2Proof/Laws/Timebase.lean ====
section
/-! SUPPORT. The arithmetic of Machine/Timebase.lean: what its functions give, for later proofs to cite. -/

namespace Sys2Proof.Params

/-- The derived constants of the parameter set the spec fixes (spec 00_scope.md R5; source values of 95_test_vectors.md S1, S2). -/
theorem default_top : Config.params.top = 39999 := by decide

theorem default_minCounts : Config.params.minCounts = 2000 := by decide

theorem default_neutralCounts : Config.params.neutralCounts = 3000 := by decide

theorem default_maxCounts : Config.params.maxCounts = 4000 := by decide

theorem default_holdCycles : Config.params.holdCycles = 100 := by decide

/-- `conv(u) = 2 × u` with the default parameters (R61). -/
theorem default_conv (u : Nat) : Config.params.conv u = 2 * u := by
  show 16000000 * u / (1000000 * 8) = 2 * u
  omega

/-- The clamp with the default parameters. -/
theorem default_clampc (c : Nat) : Config.params.clampc c = max 2000 (min 4000 c) := by
  simp only [clampc, default_minCounts, default_maxCounts]
  split
  · omega
  · split <;> omega

/-- What the clamp gives lies in its range (R62). -/
theorem clampc_bounds (p : Params) (h : p.minCounts ≤ p.maxCounts) (c : Nat) :
    p.minCounts ≤ p.clampc c ∧ p.clampc c ≤ p.maxCounts := by
  unfold clampc
  split
  · omega
  · split <;> omega

/-- A count already in the range passes the clamp. -/
theorem clampc_of_mem (p : Params) {c : Nat} (h1 : p.minCounts ≤ c) (h2 : c ≤ p.maxCounts) : p.clampc c = c := by
  unfold clampc
  split
  · omega
  · split <;> omega

/-- More microseconds never give fewer counts, for three named widths of a valid set (R62: the range is not empty). -/
theorem counts_ordered {p : Params} (h : p.Valid) :
    p.minCounts ≤ p.neutralCounts ∧ p.neutralCounts ≤ p.maxCounts := by
  obtain ⟨-, -, -, ⟨h4, h4', -⟩, -⟩ := h
  exact ⟨Nat.div_le_div_right (Nat.mul_le_mul_left _ h4), Nat.div_le_div_right (Nat.mul_le_mul_left _ h4')⟩

/-- The counts of a valid set fit in `CNT_W` bits (V3, V5). -/
theorem clampc_lt {p : Params} (h : p.Valid) (c : Nat) : p.clampc c < 65536 := by
  have hb := p.clampc_bounds (Nat.le_trans (counts_ordered h).1 (counts_ordered h).2) c
  obtain ⟨-, -, h3, -, h5, -⟩ := h
  have : p.top < 65536 := h3
  omega

/-- Below `HOLD_CYCLES` is what the pseudocode's comparison says (R91, R93). -/
theorem ceilDiv_gt {a b n : Nat} (hb : 1 ≤ b) : n < ceilDiv a b ↔ n * b < a := by
  unfold ceilDiv
  rw [Nat.lt_iff_add_one_le, Nat.le_div_iff_mul_le (by omega), Nat.add_mul]
  omega

end Sys2Proof.Params
end

