-- ==== Sys2Proof/Laws/Events.lean ====
section
/-!
SUPPORT. What each event can do, said once: later proofs cite these instead of unfolding the events. The obligations are proved
elsewhere.
-/

namespace Sys2Proof.Machine

/-! ## The events -/

/-- Every arm of `exec` is the event's state change at the parameters the spec fixes. -/
theorem exec_eq_applyEvent (i : Instr) (s : State) : exec i s = .next (applyEvent Config.params i s) := by
  cases i <;> rfl

theorem tickEvent_stopped (p : Params) {s : State} (h : s.run = false) : tickEvent p s = s := by
  simp [tickEvent, h]

theorem tickEvent_atTop (p : Params) {s : State} (h : s.run = true) (ht : s.cnt.toNat = p.top) :
    tickEvent p s = startFrame s := by
  simp [tickEvent, atTop, h, ht]

theorem tickEvent_inside (p : Params) {s : State} (h : s.run = true) (ht : s.cnt.toNat ≠ p.top) :
    tickEvent p s = advanceCount s := by
  simp [tickEvent, atTop, h, ht]

/-- Everything a TICK can do (R66). -/
theorem tickEvent_cases (p : Params) (s : State) :
    (s.run = false ∧ tickEvent p s = s) ∨
    (s.run = true ∧ s.cnt.toNat = p.top ∧ tickEvent p s = startFrame s) ∨
    (s.run = true ∧ s.cnt.toNat ≠ p.top ∧ tickEvent p s = advanceCount s) := by
  cases h : s.run
  · exact .inl ⟨rfl, tickEvent_stopped p h⟩
  · by_cases ht : s.cnt.toNat = p.top
    · exact .inr (.inl ⟨rfl, ht, tickEvent_atTop p h ht⟩)
    · exact .inr (.inr ⟨rfl, ht, tickEvent_inside p h ht⟩)

theorem configureEvent_running {s : State} (h : s.run = true) : configureEvent s = s := by
  simp [configureEvent, h]

theorem configureEvent_stopped {s : State} (h : s.run = false) :
    configureEvent s = armTimer (startFrame s) := by
  simp [configureEvent, h]

/-- Everything a CONFIGURE can do (R64). -/
theorem configureEvent_cases (s : State) :
    (s.run = true ∧ configureEvent s = s) ∨
    (s.run = false ∧ configureEvent s = armTimer (startFrame s)) := by
  cases h : s.run
  · exact .inr ⟨rfl, configureEvent_stopped h⟩
  · exact .inl ⟨rfl, configureEvent_running h⟩

/-- Everything a control cycle can do to the controller: the four transitions R82 to R85. -/
theorem transition_cases (p : Params) (v : SensorVector) (c : Controller) :
    (∃ d, c.st = .ready ∧ prio v = some d ∧ transition p v c = ⟨.active, d, 0⟩) ∨
    (c.st = .ready ∧ prio v = none ∧ transition p v c = readyController) ∨
    (c.st = .active ∧ c.elapsed.toNat + p.cycleMs < p.holdMs ∧
      transition p v c = ⟨.active, c.sel, BitVec.ofNat 13 (c.elapsed.toNat + p.cycleMs)⟩) ∨
    (c.st = .active ∧ ¬ c.elapsed.toNat + p.cycleMs < p.holdMs ∧ transition p v c = readyController) := by
  obtain ⟨st, sel, el⟩ := c
  cases st
  · cases h : prio v with
    | none => exact .inr (.inl ⟨rfl, rfl, by simp [transition, fromReady, h]⟩)
    | some d => exact .inl ⟨d, rfl, rfl, by simp [transition, fromReady, h]⟩
  · by_cases h : el.toNat + p.cycleMs < p.holdMs
    · exact .inr (.inr (.inl ⟨rfl, h, by simp [transition, fromActive, h]⟩))
    · exact .inr (.inr (.inr ⟨rfl, h, by simp [transition, fromActive, h]⟩))

/-- In ACTIVE the transition does not consult the sensors (R84, R85). -/
theorem transition_of_active (p : Params) (v : SensorVector) {c : Controller} (h : c.st = .active) :
    transition p v c = fromActive p c := by
  simp [transition, h]

section CycleFields

variable (p : Params) (v : SensorVector) (s : State)

@[simp] theorem cycleEvent_cnt : (cycleEvent p v s).cnt = s.cnt := rfl
@[simp] theorem cycleEvent_cmpActive : (cycleEvent p v s).cmpActive = s.cmpActive := rfl
@[simp] theorem cycleEvent_run : (cycleEvent p v s).run = s.run := rfl
@[simp] theorem cycleEvent_pre : (cycleEvent p v s).pre = s.pre := rfl
@[simp] theorem cycleEvent_inputs : (cycleEvent p v s).inputs = s.inputs := rfl

theorem cycleEvent_controller : controllerOf (cycleEvent p v s) = transition p v (controllerOf s) := rfl

theorem cycleEvent_ind : (cycleEvent p v s).ind = commandIndicator (transition p v (controllerOf s)) := rfl

theorem cycleEvent_cmpShadow :
    (cycleEvent p v s).cmpShadow =
      BitVec.ofNat 16 (p.clampc (p.conv (commandUs p (transition p v (controllerOf s))))) := rfl

end CycleFields

/-- No event touches the prescaler phase or the waiting inputs. -/
theorem applyEvent_pre_inputs (p : Params) (i : Instr) (s : State) :
    (applyEvent p i s).pre = s.pre ∧ (applyEvent p i s).inputs = s.inputs := by
  cases i with
  | reset => exact ⟨rfl, rfl⟩
  | configure =>
    obtain ⟨-, h⟩ | ⟨-, h⟩ := configureEvent_cases s <;> simp [applyEvent, h]
  | setpw us => exact ⟨rfl, rfl⟩
  | tick =>
    obtain ⟨-, h⟩ | ⟨-, -, h⟩ | ⟨-, -, h⟩ := tickEvent_cases p s <;> simp [applyEvent, h]
  | cycle v => exact ⟨rfl, rfl⟩

/-- Replacing the waiting inputs commutes with every event. -/
theorem applyEvent_setInputs (p : Params) (i : Instr) (rest : List Input) (s : State) :
    applyEvent p i (setInputs rest s) = setInputs rest (applyEvent p i s) := by
  cases i with
  | reset => rfl
  | configure =>
    cases h : s.run <;> simp [applyEvent, configureEvent, setInputs, startFrame, armTimer, h]
  | setpw us => rfl
  | tick =>
    cases h : s.run
    · simp [applyEvent, tickEvent, setInputs, h]
    · by_cases ht : s.cnt.toNat = p.top <;>
        simp [applyEvent, tickEvent, setInputs, startFrame, advanceCount, atTop, h, ht]
  | cycle v => rfl

/-- Moving the prescaler phase commutes with every event. -/
theorem applyEvent_setPre (p : Params) (i : Instr) (n : Nat) (s : State) :
    applyEvent p i (setPre n s) = setPre n (applyEvent p i s) := by
  cases i with
  | reset => rfl
  | configure =>
    cases h : s.run <;> simp [applyEvent, configureEvent, setPre, startFrame, armTimer, h]
  | setpw us => rfl
  | tick =>
    cases h : s.run
    · simp [applyEvent, tickEvent, setPre, h]
    · by_cases ht : s.cnt.toNat = p.top <;>
        simp [applyEvent, tickEvent, setPre, startFrame, advanceCount, atTop, h, ht]
  | cycle v => rfl

/-- While the timer runs, an event that is neither RESET nor TICK leaves the counter, the width of the frame and the run flag
alone (R64, R65, R88). -/
theorem applyEvent_keeps_frame (p : Params) {i : Instr} {s : State} (hr : s.run = true) (h1 : i ≠ .reset)
    (h2 : i ≠ .tick) :
    (applyEvent p i s).cnt = s.cnt ∧ (applyEvent p i s).cmpActive = s.cmpActive ∧ (applyEvent p i s).run = true := by
  cases i with
  | reset => exact absurd rfl h1
  | configure => simp [applyEvent, configureEvent_running hr, hr]
  | setpw us => exact ⟨rfl, rfl, hr⟩
  | tick => exact absurd rfl h2
  | cycle v => exact ⟨rfl, rfl, hr⟩

/-! ## The port-level binding -/

/-- The strobed events of an edge, as a run of events (R57). -/
theorem strobes_eq_runEvents (p : Params) (pins : Pins) (s : State) :
    strobes p pins s =
      runEvents p ((if pins.cfg then [.configure] else []) ++ (if pins.pwWe then [.setpw pins.pwUs] else []) ++
        (if pins.cyc then [.cycle pins.sens] else [])) s := by
  unfold strobes cycleIf setpwIf configureIf
  cases pins.cfg <;> cases pins.pwWe <;> cases pins.cyc <;> rfl

/-- After the strobed events the timer runs if it ran or was configured. -/
theorem strobes_run (p : Params) (pins : Pins) (s : State) : (strobes p pins s).run = (s.run || pins.cfg) := by
  have c : (configureEvent s).run = true := by
    obtain ⟨h, e⟩ | ⟨-, e⟩ := configureEvent_cases s <;> rw [e]
    · exact h
    · rfl
  unfold strobes cycleIf setpwIf configureIf
  cases pins.cfg <;> cases pins.pwWe <;> cases pins.cyc <;> simp [setpwEvent, c]

/-- An edge without a strobe moves the prescaler phase of a running timer, and does nothing else. -/
theorem clockEdge_quiet (p : Params) {s : State} (h : s.run = true) : clockEdge p quietPins s = advancePhase p s := by
  simp [clockEdge, quietPins, startsTimer, strobes, cycleIf, setpwIf, configureIf, h]

/-- Everything an edge can do (R57). -/
theorem clockEdge_cases (p : Params) (pins : Pins) (s : State) :
    (pins.rst = true ∧ clockEdge p pins s = setPre 0 (resetEvent p s)) ∨
    (pins.rst = false ∧ startsTimer pins s = true ∧ clockEdge p pins s = setPre 0 (strobes p pins s)) ∨
    (pins.rst = false ∧ startsTimer pins s = false ∧ (strobes p pins s).run = true ∧
      clockEdge p pins s = advancePhase p (strobes p pins s)) ∨
    (pins.rst = false ∧ startsTimer pins s = false ∧ (strobes p pins s).run = false ∧
      clockEdge p pins s = strobes p pins s) := by
  cases hr : pins.rst
  · cases hs : startsTimer pins s
    · cases hu : (strobes p pins s).run
      · exact .inr (.inr (.inr ⟨rfl, rfl, rfl, by simp [clockEdge, hr, hs, hu]⟩))
      · exact .inr (.inr (.inl ⟨rfl, rfl, rfl, by simp [clockEdge, hr, hs, hu]⟩))
    · exact .inr (.inl ⟨rfl, rfl, by simp [clockEdge, hr, hs]⟩)
  · exact .inl ⟨rfl, by simp [clockEdge, hr]⟩

/-! ## Runs -/

theorem runEvents_append (p : Params) (es fs : List Instr) (s : State) :
    runEvents p (es ++ fs) s = runEvents p fs (runEvents p es s) := by
  induction es generalizing s with
  | nil => rfl
  | cons i es ih => exact ih _

/-- One step of a run of the host's machine. -/
theorem core_run_next (M : Host.Core) {k : Nat} {s t : M.State} (h : M.step s = .next t) :
    Host.Core.run M (k + 1) s = Host.Core.run M k t := by
  simp [Host.Core.run, h]

theorem runEdges_append (p : Params) (qs rs : List Pins) (s : State) :
    runEdges p (qs ++ rs) s = runEdges p rs (runEdges p qs s) := by
  induction qs generalizing s with
  | nil => rfl
  | cons q qs ih => exact ih _

/-! ## The step -/

/-- Everything a step can do: idle, run a decoded event, refuse an illegal word, apply a clock edge. -/
theorem step_cases (s : State) :
    (s.inputs = [] ∧ step s = .next s) ∨
    (∃ w rest i, s.inputs = .word w :: rest ∧ decodeVerdict w = .event i ∧
      step s = .next (applyEvent Config.params i (setInputs rest s))) ∨
    (∃ w rest why, s.inputs = .word w :: rest ∧ decodeVerdict w = .invalid why ∧
      step s = .refused (.illegalEventWord w why)) ∨
    (∃ pins rest, s.inputs = .edge pins :: rest ∧ step s = .next (clockEdge Config.params pins (setInputs rest s))) := by
  cases h : s.inputs with
  | nil => exact .inl ⟨rfl, by simp [step, takeInput, h]⟩
  | cons q rest =>
    cases q with
    | word w =>
      cases hv : decodeVerdict w with
      | event i =>
        exact .inr (.inl ⟨w, rest, i, rfl, hv, by simp [step, takeInput, h, hv, exec_eq_applyEvent]⟩)
      | invalid why => exact .inr (.inr (.inl ⟨w, rest, why, rfl, hv, by simp [step, takeInput, h, hv]⟩))
    | edge pins => exact .inr (.inr (.inr ⟨pins, rest, rfl, by simp [step, takeInput, h]⟩))

/-- The step of a machine with parameters `p`, likewise. -/
theorem stepWith_cases (p : Params) (s : State) :
    (s.inputs = [] ∧ stepWith p s = .next s) ∨
    (∃ w rest i, s.inputs = .word w :: rest ∧ decodeVerdict w = .event i ∧
      stepWith p s = .next (applyEvent p i (setInputs rest s))) ∨
    (∃ w rest why, s.inputs = .word w :: rest ∧ decodeVerdict w = .invalid why ∧
      stepWith p s = .refused (.illegalEventWord w why)) ∨
    (∃ pins rest, s.inputs = .edge pins :: rest ∧ stepWith p s = .next (clockEdge p pins (setInputs rest s))) := by
  cases h : s.inputs with
  | nil => exact .inl ⟨rfl, by simp [stepWith, takeInput, h]⟩
  | cons q rest =>
    cases q with
    | word w =>
      cases hv : decodeVerdict w with
      | event i => exact .inr (.inl ⟨w, rest, i, rfl, hv, by simp [stepWith, takeInput, h, hv, execWith]⟩)
      | invalid why => exact .inr (.inr (.inl ⟨w, rest, why, rfl, hv, by simp [stepWith, takeInput, h, hv]⟩))
    | edge pins => exact .inr (.inr (.inr ⟨pins, rest, rfl, by simp [stepWith, takeInput, h]⟩))

end Sys2Proof.Machine
end

