-- ==== Sys2Proof/Laws/Halves.lean ====
section
/-! SUPPORT. What each event of the whole machine is on either half (spec 42_system_and_boundary.md R107). -/

namespace Sys2Proof.Machine

variable (p : Params) (s : State)

/-! ## The generator's half -/

theorem generatorOf_reset : generatorOf (resetEvent p s) = applyGenerator p .reset (generatorOf s) := rfl

theorem generatorOf_configure : generatorOf (configureEvent s) = applyGenerator p .configure (generatorOf s) := by
  show _ = generatorConfigure (generatorOf s)
  obtain ⟨h, e⟩ | ⟨h, e⟩ := configureEvent_cases s <;> simp [e, generatorConfigure, generatorOf, generatorFrame, h]

theorem generatorOf_setPulseWidth (us : Nat) :
    generatorOf (setPulseWidth p us s) = applyGenerator p (.setpw us) (generatorOf s) := rfl

theorem generatorOf_tick : generatorOf (tickEvent p s) = applyGenerator p .tick (generatorOf s) := by
  show _ = generatorTick p (generatorOf s)
  obtain ⟨h, e⟩ | ⟨h, ht, e⟩ | ⟨h, ht, e⟩ := tickEvent_cases p s <;>
    simp [generatorTick, generatorOf, generatorFrame, *]

theorem generatorOf_cycle (v : SensorVector) :
    generatorOf (cycleEvent p v s) =
      applyGenerator p (.setpw (commandUs p (unitCycle p v (unitOf s)).ctl)) (generatorOf s) := rfl

theorem pwm_eq_generatorPwm : pwm p s = generatorPwm p (generatorOf s) := rfl

/-! ## The controller's half -/

theorem unitOf_reset : unitOf (resetEvent p s) = applyUnit p .reset (unitOf s) := rfl

theorem unitOf_configure : unitOf (configureEvent s) = unitOf s := by
  obtain ⟨-, e⟩ | ⟨-, e⟩ := configureEvent_cases s
  · rw [e]
  · rw [e]; rfl

theorem unitOf_setPulseWidth (us : Nat) : unitOf (setPulseWidth p us s) = unitOf s := rfl

theorem unitOf_tick : unitOf (tickEvent p s) = unitOf s := by
  obtain ⟨-, e⟩ | ⟨-, -, e⟩ | ⟨-, -, e⟩ := tickEvent_cases p s <;> rw [e] <;> rfl

theorem unitOf_cycle (v : SensorVector) : unitOf (cycleEvent p v s) = applyUnit p (.cycle v) (unitOf s) := rfl

/-- Without RESET the controller machine's stream is the stream of its cycles (R108). -/
theorem unitTrace_of_cycles (vs : List SensorVector) (u : ControllerUnit) :
    unitTrace p (vs.map .cycle) u = commandTrace p vs u.ctl := by
  induction vs generalizing u with
  | nil => rfl
  | cons v vs ih => exact congrArg _ (ih _)

end Sys2Proof.Machine
end

