-- ==== Sys2Proof/Laws/PerInstr.lean ====
section
/-!
SUPPORT. Statements per instruction, about it as syntax. Family LegalEncoding: the word of an event is a legal event word of
its own row (spec 30_encoding.md R50, R53).
-/

namespace Sys2Proof.Laws.LegalEncoding

open Sys2Proof

/-- The word of `i` is legal, carries the opcode and the operand of `i`, and falls under the row of `i`. -/
def Statement (i : Instr) : Prop :=
  LegalWord (encode i) ∧ opField (encode i) = opcode i ∧ argField (encode i) = operand i ∧
    (rowOf i).covers (encode i) = true

theorem reset : Statement .reset := by unfold Statement; decide

theorem configure : Statement .configure := by unfold Statement; decide

theorem setpw (us : Micros) : Statement (.setpw us) := by
  have ho : opField (encode (.setpw us)) = 2#4 := opField_eventWord _ _
  refine ⟨⟨?_, ?_, ?_⟩, ho, argField_eventWord _ _, ?_⟩
  · rw [opListed, ho]; decide
  · rw [plainOperandZero, ho]; intro h; exact absurd h (by decide)
  · rw [cycleHighBitsZero, ho]; intro h; exact absurd h (by decide)
  · rw [rowOf, rowSetpw_covers_iff, ← opField_toNat, ho]; decide

theorem tick : Statement .tick := by unfold Statement; decide

theorem cycle (sens : SensorVector) : Statement (.cycle sens) := by
  unfold Statement
  revert sens
  decide

end Sys2Proof.Laws.LegalEncoding
end

