-- ==== Sys2Proof/Laws/Runs.lean ====
section
/-! SUPPORT. Runs, prefixes and schedules: what later proofs cite (spec 42_system_and_boundary.md R105, R106). -/

namespace Sys2Proof.Machine

@[simp] theorem prefixOf_zero (sched : Schedule) : prefixOf sched 0 = [] := rfl

theorem prefixOf_succ (sched : Schedule) (n : Nat) : prefixOf sched (n + 1) = prefixOf sched n ++ [sched n] := by
  simp [prefixOf, List.range_succ]

theorem prefixOf_length (sched : Schedule) (n : Nat) : (prefixOf sched n).length = n := by
  simp [prefixOf]

@[simp] theorem stateAt_zero (p : Params) (sched : Schedule) (s : State) : stateAt p sched s 0 = s := rfl

theorem stateAt_succ (p : Params) (sched : Schedule) (s : State) (n : Nat) :
    stateAt p sched s (n + 1) = applyEvent p (sched n) (stateAt p sched s n) := rfl

/-- What every event of a stretch of a schedule keeps holds at its end if it holds at its start. -/
theorem stateAt_induct {p : Params} {sched : Schedule} {s : State} (R : State → Prop) (Q : Instr → Prop)
    (keep : ∀ i t, Q i → R t → R (applyEvent p i t)) {n m : Nat} (hnm : n ≤ m)
    (h : ∀ k, n ≤ k → k < m → Q (sched k)) (hn : R (stateAt p sched s n)) : R (stateAt p sched s m) := by
  induction m, hnm using Nat.le_induction with
  | base => exact hn
  | succ m hm ih =>
    exact keep _ _ (h m hm (Nat.lt_succ_self m)) (ih fun k hk hlt => h k hk (Nat.lt_succ_of_lt hlt))

/-- A finite piece of the nominal schedule is a run (R105). -/
theorem nominalRun_isRun (p : Params) (phase : Nat) (senses : List SensorVector) : IsRun (nominalRun p phase senses) := rfl

/-- Of the places at or after `n` where a schedule meets a condition there is a first. -/
theorem exists_first {Q : Nat → Prop} {n : Nat} (h : ∃ m, n ≤ m ∧ Q m) :
    ∃ m, n ≤ m ∧ Q m ∧ ∀ k, n ≤ k → k < m → ¬ Q k := by
  classical
  refine ⟨Nat.find h, (Nat.find_spec h).1, (Nat.find_spec h).2, fun k hk hlt hq => ?_⟩
  exact Nat.find_min h hlt ⟨hk, hq⟩

end Sys2Proof.Machine
end

