-- ==== Sys2Proof/Tests/Slice0.lean ====
section
/-!
SUPPORT. The model's own tests. Expected values are the spec's: the vectors of 95_test_vectors.md (A, B, C, E, K series), the
encodings of 30_encoding.md, the figures of 00_scope.md R5. Then one witness for every statement that has hypotheses.
-/

namespace Sys2Proof.Tests

open Sys2Proof Sys2Proof.Machine

/-- A state with the generator in the given state and the controller in READY. -/
def gen (cnt cmpShadow cmpActive : Count) (run : Bool) : State :=
  { State.reset with cnt := cnt, cmpShadow := cmpShadow, cmpActive := cmpActive, run := run }

/-- A state with the controller in ACTIVE(sel, elapsed), its width commanded, the timer stopped. -/
def holding (sel : Sensor) (elapsed : Elapsed) (cmpShadow : Count) : State :=
  { State.reset with st := .active, sel := sel, elapsed := elapsed, ind := true, cmpShadow := cmpShadow }

/-- A small valid parameter set: a frame of 20 ticks, pulses of 1, 2 and 3 ticks, a hold of 2 cycles. -/
def small : Params :=
  { clkHz := 1000000, prescaler := 1000, frameHz := 50, minUs := 1000, centerUs := 2000, neutralUs := 2000
    maxUs := 3000, holdMs := 100, cycleMs := 50, polarityInverted := false }

/-- The small machine running at a frame start. -/
def smallRunning : State :=
  { State.resetWith small with run := true }

/-- Whether an outcome is a next state with the given generator and controller fields (the columns of 95_test_vectors.md). -/
def gives (o : Host.Outcome State Fault Refusal) (g : Generator) (c : Controller) (ind : Bool) : Bool :=
  match o with
  | .next t => generatorOf t == g && controllerOf t == c && t.ind == ind
  | .fault _ => false
  | .refused _ => false

/-! ## Well-formedness: each check refuses a term that breaks it and nothing else -/

theorem test_default_parameters_are_valid : Config.params.Valid := by decide

theorem test_small_parameters_are_valid : small.Valid := by decide

theorem test_V1_refuses : ¬ Params.V1 { Config.params with frameHz := 60 } := by decide

theorem test_V2_refuses : ¬ Params.V2 { Config.params with clkHz := 100 } := by decide

/-- 16 MHz undivided: `TOP` = 319999 does not fit 16 bits. -/
theorem test_V3_refuses : ¬ Params.V3 { Config.params with prescaler := 1 } := by decide

theorem test_V4_refuses : ¬ Params.V4 { Config.params with neutralUs := 1600 } := by decide

theorem test_V5_refuses : ¬ Params.V5 { Config.params with maxUs := 20000 } := by decide

theorem test_V6_refuses : ¬ Params.V6 { Config.params with minUs := 0 } := by decide

theorem test_V7_refuses : ¬ Params.V7 { Config.params with maxUs := 65536 } := by decide

theorem test_V8_refuses : ¬ Params.V8 { Config.params with cycleMs := 0 } := by decide

theorem test_V9_refuses : ¬ Params.V9 { Config.params with holdMs := 8192 } := by decide

theorem test_invalid_parameters_are_not_instantiated :
    (instantiate { Config.params with prescaler := 1 }).isNone = true := by decide

/-- E11: a reserved opcode. -/
theorem test_reserved_opcode_is_illegal : ¬ LegalWord 0x50000#20 := by decide

/-- E12: TICK with an operand. -/
theorem test_operand_of_tick_is_illegal : ¬ LegalWord 0x30001#20 := by decide

/-- E10: CYCLE with `arg[3]` = 1. -/
theorem test_high_bits_of_cycle_are_illegal : ¬ LegalWord 0x40008#20 := by decide

theorem test_every_instruction_is_well_formed (i : Instr) : i.wellFormed = true := by cases i <;> rfl

/-! ## Derived constants (00_scope.md R5; 95_test_vectors.md S1, S2, S10; 70_reset_and_hazards.md section 3) -/

theorem test_derived_constants :
    Config.params.top = 39999 ∧ Config.params.frameTicks = 40000 ∧ Config.params.minCounts = 2000 ∧
    Config.params.neutralCounts = 3000 ∧ Config.params.maxCounts = 4000 ∧ Config.params.holdCycles = 100 ∧
    Config.params.frameClocks = 320000 ∧ Config.params.ticksOfMs 50 = 100000 ∧ Config.params.preW = 3 := by decide

theorem test_timing_figures :
    Config.params.psOfClocks 1 = 62500 ∧ Config.params.psOfTicks 1 = 500000 ∧
    Config.params.psOfTicks 40000 = 20000000000 ∧ Config.params.nominalHoldMs = 5000 := by decide

/-- The word types have the widths of the configuration. -/
theorem test_widths : Count = BitVec Config.cntW ∧ Micros = BitVec Config.usW ∧
    Elapsed = BitVec Config.elapsedW ∧ EventWord = BitVec Config.evW := ⟨rfl, rfl, rfl, rfl⟩

/-! ## Decoding: a word of each event written out from 30_encoding.md section 2, `{op, arg}` bit by bit -/

theorem test_decode_reset : decode 0b00000000000000000000#20 = some .reset := by decide

theorem test_decode_configure : decode 0b00010000000000000000#20 = some .configure := by decide

/-- E3: SETPW 1000 is 0x203E8. -/
theorem test_decode_setpw : decode 0b00100000001111101000#20 = some (.setpw 1000#16) := by decide

theorem test_decode_tick : decode 0b00110000000000000000#20 = some .tick := by decide

/-- E8: CYCLE with LEFT and RIGHT detected. -/
theorem test_decode_cycle : decode 0b01000000000000000101#20 = some (.cycle 0b101#3) := by decide

/-- E14: a reserved opcode, refused by its name. -/
theorem test_decode_reserved : decodeVerdict 0xF0000#20 = .invalid (.reservedOpcode 0xF#4) := by decide

theorem test_encode_setpw_65535 : encode (.setpw 65535#16) = 0x2FFFF#20 := by decide

/-! ## The events -/

/-- The example of R100. -/
theorem test_reset_mid_hold :
    gives (exec .reset { holding .left 250#13 2000#16 with cnt := 1234#16, cmpActive := 4000#16, run := true })
      ⟨0#16, 3000#16, 3000#16, false⟩ ⟨.ready, .left, 0#13⟩ false = true := by decide

/-- B3: a write before CONFIGURE is taken into the first frame. -/
theorem test_configure_takes_the_shadow :
    gives (exec .configure (gen 0 2000 3000 false)) ⟨0#16, 2000#16, 2000#16, true⟩ readyController false = true := by decide

/-- B4: no effect while the timer runs. -/
theorem test_configure_again :
    gives (exec .configure (gen 1234 2000 3000 true)) ⟨1234#16, 2000#16, 3000#16, true⟩ readyController false = true := by
  decide

/-- A14: `conv` exceeds 16 bits before the clamp and must not wrap. -/
theorem test_setpw_32768 :
    gives (exec (.setpw 32768#16) State.reset) ⟨0#16, 4000#16, 3000#16, false⟩ readyController false = true := by decide

/-- A3: just below the range. -/
theorem test_setpw_999 :
    gives (exec (.setpw 999#16) State.reset) ⟨0#16, 2000#16, 3000#16, false⟩ readyController false = true := by decide

/-- B11: the frame boundary takes the shadow value. -/
theorem test_tick_at_top :
    gives (exec .tick (gen 39999 2000 3000 true)) ⟨0#16, 2000#16, 2000#16, true⟩ readyController false = true := by decide

/-- B7: the compare match is the falling edge. -/
theorem test_tick_falling_edge :
    pwm Config.params (gen 2999 3000 3000 true) = true ∧
    pwm Config.params (tickEvent Config.params (gen 2999 3000 3000 true)) = false := by decide

/-- C6: LEFT over RIGHT. -/
theorem test_cycle_left_over_right :
    gives (exec (.cycle 0b101#3) State.reset) ⟨0#16, 2000#16, 3000#16, false⟩ ⟨.active, .left, 0#13⟩ true = true := by decide

/-- C15: expiry ignores the sensors. -/
theorem test_cycle_expiry_ignores_sensors :
    gives (exec (.cycle 0b111#3) (holding .left 4950#13 2000#16))
      ⟨0#16, 3000#16, 3000#16, false⟩ ⟨.ready, .left, 0#13⟩ false = true := by decide

/-! ## The port-level binding (K series) -/

/-- K2: no TICK at the edge that starts the timer. -/
theorem test_edge_starts_the_timer :
    clockEdge Config.params { quietPins with cfg := true } State.reset = gen 0 3000 3000 true := by decide

/-- K6: a control cycle at the boundary edge is taken into the new frame. -/
theorem test_edge_cycle_at_boundary :
    gives (.next (clockEdge Config.params { quietPins with cyc := true, sens := 0b100#3 }
      (setPre 7 (gen 39999 3000 3000 true)))) ⟨0#16, 2000#16, 2000#16, true⟩ ⟨.active, .left, 0#13⟩ true = true := by decide

/-- K7: CONFIGURE comes before the external write. -/
theorem test_edge_configure_then_write :
    gives (.next (clockEdge Config.params { quietPins with cfg := true, pwWe := true, pwUs := 2000#16 } State.reset))
      ⟨0#16, 4000#16, 3000#16, true⟩ readyController false = true := by decide

/-! ## The text form (30_encoding.md section 3) -/

theorem test_read_setpw_hex : parseLine ['S', 'E', 'T', 'P', 'W', ' ', '0', 'x', '3', 'E', '8', ' ', ';', 'x'] =
    some (.event (.setpw 1000#16)) := by decide

theorem test_read_cycles : parseLine ['C', 'Y', 'C', 'L', 'E', '*', '9', '9', ' ', '0', 'b', '0', '0', '0'] =
    some (.pseudo (.cycleN 99 0b000#3)) := by decide

theorem test_read_out_of_range : parseLine ['C', 'Y', 'C', 'L', 'E', ' ', '8'] = none := by decide

theorem test_expand_cycle_l : expand Config.params .cycleL = [.cycle 0b100#3] := by decide

/-! ## Views and boundary operations -/

theorem test_pack_active : packController ⟨.active, .right, 50#13⟩ = 0xC032#16 := by decide

theorem test_code_three_is_no_sensor : sensorOfCode 0b11#2 = none := by decide

theorem test_read_sensor : ∀ v : SensorVector,
    sensorVector (readSensor v .left) (readSensor v .center) (readSensor v .right) = v := by decide

/-! ## Runs and the two halves (42_system_and_boundary.md section 3) -/

/-- The first CYCLE at phase 3, and the next 50 ticks (50 ms at 1 kHz) after it. -/
theorem test_nominal_schedule_phase :
    nominalEvent small 3 (fun _ => 0b001#3) 2 = .tick ∧ nominalEvent small 3 (fun _ => 0b001#3) 3 = .cycle 0b001#3 ∧
    nominalEvent small 3 (fun _ => 0b001#3) 53 = .tick ∧ nominalEvent small 3 (fun _ => 0b001#3) 54 = .cycle 0b001#3 := by
  have ticks : nominalTicks small = 50 := by decide
  simp [nominalEvent, ticks]

/-- A RESET in a hold gives no output; the cycle after it is from READY. -/
theorem test_controller_machine_reset :
    unitTrace Config.params [.cycle 0b100#3, .reset, .cycle 0b001#3] unitReset = [(1000, true), (2000, true)] := by decide

/-- The generator alone: a write before CONFIGURE shapes the first frame (B3). -/
theorem test_generator_machine :
    runGenerator Config.params [.reset, .setpw 1000, .configure, .tick] ⟨7, 0, 0, true⟩ = ⟨1#16, 2000#16, 2000#16, true⟩ := by
  simp [runGenerator, applyGenerator, generatorReset, generatorSetpw, generatorConfigure, generatorFrame, generatorTick,
    Params.default_conv, Params.default_clampc, Params.default_top]

/-! ## A witness for every statement that has hypotheses -/

theorem witness_ConfigureStartsTheTimerOnce :
    (gen 5 3000 3000 true).run = true ∧ State.reset.run = false ∧ 0 < State.reset.cmpShadow.toNat := by decide

theorem witness_TickCountsOrStartsAFrame :
    State.reset.run = false ∧ ((gen 39999 0 0 true).run = true ∧ (gen 39999 0 0 true).cnt.toNat = 39999) ∧
    ((gen 39998 0 0 true).run = true ∧ (gen 39998 0 0 true).cnt.toNat ≠ 39999) := by decide

theorem witness_CycleFromReadyArbitrates :
    State.reset.st = .ready ∧ (0b111#3).getLsbD 2 = true ∧ ((0b011#3).getLsbD 2 = false ∧ (0b011#3).getLsbD 1 = true) ∧
    ((0b001#3).getLsbD 2 = false ∧ (0b001#3).getLsbD 1 = false ∧ (0b001#3).getLsbD 0 = true) := by decide

theorem witness_CycleAdvancesOrEndsTheHold :
    (holding .right 4900 4000).st = .active ∧ (holding .right 4949 4000).elapsed.toNat + 50 < 5000 ∧
    (holding .right 4950 4000).st = .active ∧ 5000 ≤ (holding .right 4950 4000).elapsed.toNat + 50 := by decide

theorem witness_CycleReassertsItsOutputs :
    (cycleEvent Config.params 0b001#3 State.reset).st = .active ∧
    (cycleEvent Config.params 0b000#3 State.reset).st = .ready := by decide

theorem witness_MatchAndMaskRowsAgreeWithTheDecoder :
    decode 0x40007#20 = some (.cycle 0b111#3) ∧ decode 0x40008#20 = none ∧ rowCycle ∈ opcodeRows := by decide

theorem witness_StepRunsTheDecodedEvent :
    (State.reset.withFetchWord 24 0x30000).inputs = .word 0x30000#20 :: [] ∧ decode 0x30000#20 = some .tick := by decide

theorem witness_StepRefusesAnIllegalWord :
    (State.reset.withFetchWord 24 0x50000).inputs = .word 0x50000#20 :: [] ∧ decode 0x50000#20 = none := by decide

theorem witness_StepAppliesAClockEdgeOrIdles :
    (pushInput (.edge quietPins) State.reset).inputs = .edge quietPins :: [] ∧ State.reset.inputs = [] := by decide

theorem witness_PlacedTableWordRunsNext :
    decodeTableWord 24 0x203E8 = some (.setpw 1000#16) ∧ decodeTableWord 20 0x40007 = some (.cycle 0b111#3) := by decide

theorem witness_LegalInputsNeverStopTheMachine :
    SafeInputs (setInputs [.word 0x40007#20, .edge quietPins] State.reset) := by decide

theorem witness_QueuedWordsRunTheirEventsInOrder :
    (setInputs [.word 0x10000#20, .word 0x30000#20, .edge quietPins] State.reset).inputs =
      [Instr.configure, .tick].map (fun i => Input.word (encode i)) ++ [.edge quietPins] := by decide

theorem witness_OnlyValidParametersAreInstantiated :
    Config.params.Valid ∧ ¬ Params.Valid { Config.params with prescaler := 1 } := by decide

theorem witness_ConversionIsMonotoneAndClampsEitherWay :
    999 ≤ 1000 ∧ Config.params.minUs ≤ Config.params.maxUs := by decide

theorem witness_FrameIsTwentyMillisecondsWithinOneTick : Params.Valid { Config.params with clkHz := 16000399 } := by decide

theorem witness_NoStoredValueWraps :
    Config.params.Valid ∧ Inv Config.params (setPre 7 (gen 39998 2000 4000 true)) ∧
    (gen 39998 2000 4000 true).run = true ∧ (gen 39998 2000 4000 true).cnt.toNat ≠ Config.params.top ∧
    (holding .right 4900 4000).st = .active ∧ Inv Config.params (holding .right 4900 4000) ∧
    (holding .right 4900 4000).elapsed.toNat + Config.params.cycleMs < Config.params.holdMs := by decide

theorem witness_ResetStateMeetsTheInvariants : small.Valid := by decide

/-- The step from an armed state at the frame boundary: the invariants hold and the step answers a next state. -/
theorem witness_StepKeepsTheInvariants :
    Inv Config.params (pushInput (.word 0x30000#20) (gen 39999 2000 3000 true)) ∧
    step (pushInput (.word 0x30000#20) (gen 39999 2000 3000 true)) =
      .next (tickEvent Config.params (gen 39999 2000 3000 true)) := ⟨by decide, rfl⟩

theorem witness_EveryValidMachineKeepsTheInvariants :
    small.Valid ∧ Inv small (pushInput (.word 0x30000#20) smallRunning) ∧
    stepWith small (pushInput (.word 0x30000#20) smallRunning) = .next (tickEvent small smallRunning) :=
  ⟨by decide, by decide, rfl⟩

/-- Every clause: a CYCLE in a linked state that is not the reset state, an edge, and a run. -/
theorem witness_ShadowFollowsTheControllerAlone :
    small.Valid ∧ (∀ us, Instr.cycle 0b100#3 ≠ .setpw us) ∧ Linked Config.params (holding .left 50 2000) ∧
    { quietPins with cyc := true }.pwWe = false ∧ NoExternalWrite [.configure, .cycle 0b100#3, .tick] :=
  ⟨by decide, by simp, by decide, rfl, by intro us; simp⟩

/-- Every clause: TICK meets the first, third and fourth (it is also CONFIGURE's third), SETPW the second. -/
theorem witness_EachElementChangesOnlyByItsOwner :
    exec .tick smallRunning = .next (tickEvent Config.params smallRunning) ∧ (Instr.tick ≠ .reset) ∧
    (Instr.tick ≠ .configure) ∧ (∀ v, Instr.tick ≠ .cycle v) ∧ (∀ us, Instr.tick ≠ .setpw us) ∧
    exec (.setpw 7) smallRunning = .next (setpwEvent Config.params 7 smallRunning) ∧ Instr.setpw 7 ≠ .reset ∧
    Instr.setpw 7 ≠ .configure ∧ Instr.setpw 7 ≠ .tick := by
  refine ⟨rfl, ?_, ?_, ?_, ?_, rfl, ?_, ?_, ?_⟩ <;> simp

/-- Two states that differ in the generator and agree in the controller, and two the other way round. -/
theorem witness_HalvesDoNotReadEachOther :
    (exec (.cycle 0b010#3) (gen 7 3000 3000 true) = .next (cycleEvent Config.params 0b010#3 (gen 7 3000 3000 true)) ∧
      exec (.cycle 0b010#3) (gen 9 2000 4000 false) = .next (cycleEvent Config.params 0b010#3 (gen 9 2000 4000 false)) ∧
      controllerOf (gen 7 3000 3000 true) = controllerOf (gen 9 2000 4000 false) ∧ gen 7 3000 3000 true ≠ gen 9 2000 4000 false) ∧
    (exec .tick State.reset = .next (tickEvent Config.params State.reset) ∧
      exec .tick (holding .left 50 3000) = .next (tickEvent Config.params (holding .left 50 3000)) ∧
      generatorOf State.reset = generatorOf (holding .left 50 3000) ∧ State.reset ≠ holding .left 50 3000) :=
  ⟨⟨rfl, rfl, by decide, by decide⟩, ⟨rfl, rfl, by decide, by decide⟩⟩

theorem witness_ControllerSeesOnlyItsCycles : NoReset [.configure, .cycle 0b100#3, .tick, .setpw 1234#16] := by decide

theorem witness_TickAndCycleCommuteInsideAFrame :
    ¬ ((gen 39998 2000 3000 true).run = true ∧ (gen 39998 2000 3000 true).cnt.toNat = Config.params.top) := by decide

theorem witness_PolarityOnlyComplementsTheRunningOutput : smallRunning.run = true ∧ State.reset.run = false := by decide

/-- Three ticks with a control cycle and a write among them, inside a frame of the small machine. -/
theorem witness_FrameInProgressIsNeverDisturbed :
    small.Valid ∧ small.polarityInverted = false ∧ Inv small smallRunning ∧ smallRunning.run = true ∧
    smallRunning.cnt = 0#16 ∧ NoReset [.tick, .cycle 0b100#3, .tick, .setpw 0#16, .tick] ∧
    countTicks [.tick, .cycle 0b100#3, .tick, .setpw 0#16, .tick] ≤ small.top := by decide

/-- Nineteen ticks with a control cycle before them, in the frame of twenty ticks of the small machine. -/
theorem witness_EveryFrameIsOneWholePulse :
    small.Valid ∧ small.polarityInverted = false ∧ Inv small smallRunning ∧ smallRunning.run = true ∧
    smallRunning.cnt = 0#16 ∧ NoReset (.cycle 0b001#3 :: List.replicate 19 .tick) ∧
    countTicks (.cycle 0b001#3 :: List.replicate 19 .tick) = small.top := by decide

theorem witness_LastWriteShapesTheNextFrame :
    small.Valid ∧ Inv small smallRunning ∧ smallRunning.run = true ∧ NoReset [.setpw 3000#16, .tick] ∧
    NoCommand (List.replicate 18 .tick) ∧
    smallRunning.cnt.toNat + countTicks [.setpw 3000#16, .tick] + countTicks (List.replicate 18 .tick) = small.top := by
  decide

theorem witness_RepeatedSetpwChangesNothing :
    exec (.setpw 1234#16) State.reset = .next (setpwEvent Config.params 1234#16 State.reset) := rfl

theorem witness_NoPulseBeforeConfigure : Instr.configure ∉ [Instr.tick, .cycle 0b001#3, .setpw 0#16, .reset] := by decide

theorem witness_SensorsAreIgnoredDuringAHold : (holding .right 50 4000).st = .active := by decide

/-- Both clauses, on the small machine: one cycle inside the hold of ACTIVE(RIGHT, 0), and its two cycles. -/
theorem witness_HoldEndsAfterExactlyItsCycles :
    small.Valid ∧ CtlInv small ⟨.active, .right, 0#13⟩ ∧ [0b111#3].length * small.cycleMs < small.holdMs - 0 ∧
    [0b111#3, 0b000#3].length = Params.ceilDiv (small.holdMs - 0) small.cycleMs := by decide

theorem witness_DetectionHoldsForOneHundredCycles :
    State.reset.st = .ready ∧ prio 0b010#3 = some .center ∧ NoReset (List.replicate 99 (.cycle 0b000#3)) ∧
    (sensesOf (List.replicate 99 (.cycle 0b000#3))).length = 99 := by decide

theorem witness_DownCountingTimerIsTheSameMachine :
    small.Valid ∧ CtlInv small ⟨.active, .left, 50#13⟩ ∧ CtlInv small readyController ∧
    toDown small ⟨.active, .left, 50#13⟩ = toDown small ⟨.active, .left, 50#13⟩ := by decide

theorem witness_CycleCountingTimerIsTheSameMachine : small.Valid ∧ CtlInv small ⟨.active, .left, 50#13⟩ := by decide

theorem witness_CycleSelfCorrectsItsOutputs :
    Inv Config.params (holding .left 100 2000) ∧ Linked Config.params (holding .left 100 2000) ∧
    exec (.cycle 0b000#3) (holding .left 100 2000) = .next (cycleEvent Config.params 0b000#3 (holding .left 100 2000)) ∧
    (cycleEvent Config.params 0b000#3 (holding .left 100 2000)).st = .active ∧
    (cycleEvent Config.params 0b000#3 (holding .left 100 2000)).sel = .left :=
  ⟨by decide, by decide, rfl, by decide, by decide⟩

theorem witness_ControllerCommandsTheMappedWidths :
    (1000, true) ∈ commandTrace Config.params [0b000#3, 0b100#3] readyController ∧
    (1500, false) ∈ commandTrace Config.params [0b000#3, 0b100#3] readyController := by decide

theorem witness_ControllerViewsLoseNothing :
    ReadyCanonical readyController ∧ ReadyCanonical ⟨.active, .right, 50#13⟩ := by decide

theorem witness_ResetPinOverridesEveryStrobe :
    ({ rst := true, cfg := true, cyc := true, sens := 0b111#3, pwWe := true, pwUs := 0#16 } : Pins).rst = true := rfl

/-- Both clauses, with `k` at its boundary value. -/
theorem witness_OneTickEveryPrescalerEdges :
    Config.params.Valid ∧ (gen 5 3000 3000 true).run = true ∧ (gen 5 3000 3000 true).pre = 0 ∧
    7 < Config.params.prescaler ∧ State.reset.run = false := by decide

theorem witness_FrameLastsItsClocks :
    Config.params.Valid ∧ (gen 0 2000 3000 true).run = true ∧ (gen 0 2000 3000 true).pre = 0 ∧
    (gen 0 2000 3000 true).cnt = 0#16 := by decide

theorem witness_FramePseudoEventIsOneFrame :
    Config.params.Valid ∧ (gen 0 2000 3000 true).run = true ∧ (gen 0 2000 3000 true).cnt = 0#16 := by decide

theorem witness_ArbitrationAndReadyTransitions :
    (0b100#3).getLsbD 2 = true ∧ ((0b011#3).getLsbD 2 = false ∧ (0b011#3).getLsbD 1 = true) ∧
    ((0b001#3).getLsbD 2 = false ∧ (0b001#3).getLsbD 1 = false ∧ (0b001#3).getLsbD 0 = true) ∧
    State.reset.st = .ready ∧ prio 0b001#3 = some .right ∧ State.reset.sel = .left ∧ State.reset.elapsed = 0#13 ∧
    prio 0b000#3 = none := by decide

/-- A fair schedule without RESET: TICK at the even places, a CYCLE with LEFT at the odd ones. -/
def alternating : Schedule := fun n => if n % 2 = 0 then .tick else .cycle 0b100#3

theorem alternating_is_fair : Fair alternating :=
  ⟨fun n => ⟨2 * n, by omega, by simp [alternating]⟩,
    fun n => ⟨2 * n + 1, 0b100#3, by omega, by simp [alternating]⟩⟩

theorem witness_EveryRunMeetsTheInvariants :
    small.Valid ∧ PhaseInRange small smallRunning ∧ IsInfiniteRun (nominalSchedule small 3 fun _ => 0b001#3) :=
  ⟨by decide, by decide, rfl⟩

theorem witness_FairRunReturnsToReady : small.Valid ∧ Fair alternating := ⟨by decide, alternating_is_fair⟩

theorem witness_FairRunStartsFramesForEver :
    small.Valid ∧ small.polarityInverted = false ∧ Fair alternating ∧ (∀ k, alternating k ≠ .reset) ∧
    Inv small smallRunning ∧ smallRunning.run = true :=
  ⟨by decide, rfl, alternating_is_fair, fun k => by unfold alternating; split <;> simp, by decide, rfl⟩

theorem witness_NominalScheduleIsAFairRun : 1 ≤ nominalTicks Config.params ∧ 1 ≤ nominalTicks small := by decide

end Sys2Proof.Tests
end

section
/-!
PROOFS. The statements of spec 40_frame_generator.md: SETPW (R65).
-/

namespace Sys2Proof.Machine

/-- `pwm` reads `cnt`, `cmp_active` and `run` only, so writing the shadow compare register does not move it (R67). -/
theorem pwm_write_cmpShadow (p : Params) (c : Count) (s : State) : pwm p { s with cmpShadow := c } = pwm p s := rfl

/-- With the parameters the spec fixes, a count is half a microsecond and the clamp is 2000 to 4000 (R61, R62, R65). -/
theorem setpwEvent_default (us : Micros) (s : State) :
    setpwEvent Config.params us s =
      { s with cmpShadow := BitVec.ofNat 16 (max 2000 (min 4000 (2 * us.toNat))) } := by
  rw [setpwEvent, setPulseWidth, Params.default_clampc, Params.default_conv]

/-- Settles O3: the event's write with R65's own numbers, which `pwm` does not read, and the fields of the word of SETPW. -/
theorem setpwWritesTheClampedCounts : Obligations.SetpwWritesTheClampedCounts := by
  intro us s t
  obtain ⟨-, hop, harg, -⟩ := Laws.LegalEncoding.setpw us
  have hexec : exec (.setpw us) s = .next t :=
    (exec_eq_applyEvent (.setpw us) s).trans (congrArg _ (setpwEvent_default us s))
  exact ⟨hexec, pwm_write_cmpShadow _ _ s, hop, harg⟩

end Sys2Proof.Machine
end

section
/-!
PROOFS. The statements of spec 41_motion_controller.md: arbitration and the transitions from READY (R81 to R83), the
pulse-width map (R86) and the output actions of a cycle (R87).
-/

namespace Sys2Proof.Machine

/-! ## Arbitration and the transitions from READY -/

theorem prio_left {sens : SensorVector} (hl : readSensor sens .left = true) : prio sens = some .left := by
  simp [prio, hl]

theorem prio_center {sens : SensorVector} (hl : readSensor sens .left = false) (hc : readSensor sens .center = true) :
    prio sens = some .center := by
  simp [prio, hl, hc]

theorem prio_right {sens : SensorVector} (hl : readSensor sens .left = false) (hc : readSensor sens .center = false)
    (hr : readSensor sens .right = true) : prio sens = some .right := by
  simp [prio, hl, hc, hr]

/-- No sensor is chosen exactly when all three read "not detected" (R81). -/
theorem prio_eq_none_iff (sens : SensorVector) : prio sens = none ↔ ∀ d, readSensor sens d = false := by
  refine ⟨fun h d => ?_, fun h => by simp [prio, h]⟩
  cases hl : readSensor sens .left with
  | true => simp [prio_left hl] at h
  | false =>
    cases hc : readSensor sens .center with
    | true => simp [prio_center hl hc] at h
    | false =>
      cases hr : readSensor sens .right with
      | true => simp [prio_right hl hc hr] at h
      | false => cases d <;> assumption

/-- The three readings are the whole vector, so all of them are "not detected" in the zero vector only (R45). -/
theorem eq_zero_iff_readSensor (sens : SensorVector) : sens = 0 ↔ ∀ d, readSensor sens d = false := by
  refine ⟨fun h d => by subst h; cases d <;> rfl, fun h => BitVec.eq_of_getLsbD_eq fun i hi => ?_⟩
  obtain rfl | rfl | rfl : i = 0 ∨ i = 1 ∨ i = 2 := by omega
  · exact h .right
  · exact h .center
  · exact h .left

/-- In READY the transition depends on the sensors only (R82, R83). -/
theorem transition_of_ready (p : Params) (v : SensorVector) {c : Controller} (h : c.st = .ready) :
    transition p v c = fromReady v := by
  simp [transition, h]

theorem fromReady_of_detection {v : SensorVector} {d : Sensor} (h : prio v = some d) :
    fromReady v = ⟨.active, d, 0⟩ := by
  simp [fromReady, h]

theorem fromReady_of_none {v : SensorVector} (h : prio v = none) : fromReady v = readyController := by
  simp [fromReady, h]

/-- The controller part of a state in READY's one encoding (R15). -/
theorem controllerOf_eq_ready {s : State} (hst : s.st = .ready) (hsel : s.sel = .left) (hel : s.elapsed = 0) :
    controllerOf s = readyController := by
  simp [controllerOf, readyController, hst, hsel, hel]

/-- A CYCLE writes to the controller part what the transition gives. -/
theorem exec_cycle_controller {v : SensorVector} {s : State} {c : Controller}
    (h : transition Config.params v (controllerOf s) = c) :
    ∃ t : State, exec (.cycle v) s = .next t ∧ t.st = c.st ∧ t.sel = c.sel ∧ t.elapsed = c.elapsed := by
  subst h
  exact ⟨_, exec_eq_applyEvent _ s, rfl, rfl, rfl⟩

/-- Settles O52: the branches of `prio`, then the two arms of the transition from READY. -/
theorem arbitrationAndReadyTransitions : Obligations.ArbitrationAndReadyTransitions := by
  intro sens
  refine ⟨prio_left, prio_center, prio_right,
    (eq_zero_iff_readSensor sens).trans (prio_eq_none_iff sens).symm, fun s d hs hd => ?detected,
    fun s hst hsel hel hn => ?none⟩
  case detected =>
    exact exec_cycle_controller ((transition_of_ready Config.params sens hs).trans (fromReady_of_detection hd))
  case none =>
    have hkeep : transition Config.params sens (controllerOf s) = controllerOf s :=
      calc transition Config.params sens (controllerOf s)
        _ = fromReady sens := transition_of_ready Config.params sens hst
        _ = readyController := fromReady_of_none hn
        _ = controllerOf s := (controllerOf_eq_ready hst hsel hel).symm
    exact exec_cycle_controller hkeep

/-! ## The pulse-width map -/

theorem commandUs_of_active (p : Params) {c : Controller} (h : c.st = .active) : commandUs p c = usOf p c.sel := by
  simp [commandUs, h]

theorem commandUs_of_ready (p : Params) {c : Controller} (h : c.st = .ready) : commandUs p c = p.neutralUs := by
  simp [commandUs, h]

theorem commandIndicator_of_active {c : Controller} (h : c.st = .active) : commandIndicator c = true := by
  simp [commandIndicator, h]

theorem commandIndicator_of_ready {c : Controller} (h : c.st = .ready) : commandIndicator c = false := by
  simp [commandIndicator, h]

/-- With the parameters the spec fixes, every width from `MIN_US` to `MAX_US` is two counts per microsecond, unclamped
(R61, R62). -/
theorem default_counts_of_mem {us : Nat} (h1 : 1000 ≤ us) (h2 : us ≤ 2000) :
    Config.params.clampc (Config.params.conv us) = 2 * us := by
  rw [Params.default_conv, Params.default_clampc]
  omega

/-- The counts SETPW stores for the width of a sensor (R86). -/
theorem default_counts_usOf (d : Sensor) :
    Config.params.clampc (Config.params.conv (usOf Config.params d)) = 2 * usOf Config.params d := by
  cases d <;> exact default_counts_of_mem (by decide) (by decide)

/-- Each pair of the output stream is commanded by some controller state (R108). -/
theorem exists_controller_of_mem_commandTrace {p : Params} {vs : List SensorVector} {c : Controller} {o : Nat × Bool}
    (h : o ∈ commandTrace p vs c) : ∃ c' : Controller, o = (commandUs p c', commandIndicator c') := by
  induction vs generalizing c with
  | nil => cases h
  | cons v vs ih =>
    obtain rfl | h := List.mem_cons.mp h
    · exact ⟨transition p v c, rfl⟩
    · exact ih h

/-- Settles O44: the map's values, and that a pair of the stream is what READY or ACTIVE with some sensor commands. -/
theorem controllerCommandsTheMappedWidths : Obligations.ControllerCommandsTheMappedWidths := by
  refine ⟨⟨rfl, rfl, rfl⟩, fun t => ⟨rfl, rfl⟩, fun s => ?counts, fun vs c u b h => ?stream⟩
  case counts =>
    simp only [setPulseWidth_cmpShadow, default_counts_usOf]
    exact ⟨rfl, rfl, rfl⟩
  case stream =>
    obtain ⟨c', hpair⟩ := exists_controller_of_mem_commandTrace h
    obtain ⟨rfl, rfl⟩ := Prod.mk.inj hpair
    cases hst : c'.st with
    | ready => exact .inl ⟨commandIndicator_of_ready hst, commandUs_of_ready _ hst⟩
    | active =>
      refine .inr ⟨commandIndicator_of_active hst, ?_⟩
      rw [commandUs_of_active _ hst]
      cases c'.sel <;> simp [usOf, Config.params]

/-! ## The output actions of a cycle -/

/-- The outputs of a CYCLE that ends in ACTIVE are those of the sensor held after it (R87). -/
theorem cycleEvent_outputs_of_active {p : Params} {v : SensorVector} {s : State} (h : (cycleEvent p v s).st = .active) :
    (cycleEvent p v s).ind = true ∧
      (cycleEvent p v s).cmpShadow = BitVec.ofNat 16 (p.clampc (p.conv (usOf p (cycleEvent p v s).sel))) := by
  have hst : (transition p v (controllerOf s)).st = .active := h
  rw [cycleEvent_ind, cycleEvent_cmpShadow, commandUs_of_active p hst, commandIndicator_of_active hst]
  exact ⟨rfl, rfl⟩

/-- The outputs of a CYCLE that ends in READY are the neutral width and "ready" (R87). -/
theorem cycleEvent_outputs_of_ready {p : Params} {v : SensorVector} {s : State} (h : (cycleEvent p v s).st = .ready) :
    (cycleEvent p v s).ind = false ∧
      (cycleEvent p v s).cmpShadow = BitVec.ofNat 16 (p.clampc (p.conv p.neutralUs)) := by
  have hst : (transition p v (controllerOf s)).st = .ready := h
  rw [cycleEvent_ind, cycleEvent_cmpShadow, commandUs_of_ready p hst, commandIndicator_of_ready hst]
  exact ⟨rfl, rfl⟩

/-- A CYCLE writes nothing that `pwm` reads (R67, R88). -/
theorem pwm_cycleEvent (p q : Params) (v : SensorVector) (s : State) : pwm p (cycleEvent q v s) = pwm p s := rfl

/-- Settles O7: the outputs by the state after the cycle, with the map's counts; the frame is that of `cycleEvent`. -/
theorem cycleReassertsItsOutputs : Obligations.CycleReassertsItsOutputs := by
  intro sens s
  refine ⟨cycleEvent Config.params sens s, exec_eq_applyEvent _ s, fun h => ?active, fun h => ?ready,
    cycleEvent_cnt .., cycleEvent_cmpActive .., cycleEvent_run .., cycleEvent_pre .., cycleEvent_inputs ..,
    pwm_cycleEvent ..⟩
  case active =>
    obtain ⟨hind, hshadow⟩ := cycleEvent_outputs_of_active h
    refine ⟨hind, hshadow.trans ?_⟩
    rw [default_counts_usOf]
    cases (cycleEvent Config.params sens s).sel <;> rfl
  case ready =>
    obtain ⟨hind, hshadow⟩ := cycleEvent_outputs_of_ready h
    refine ⟨hind, hshadow.trans ?_⟩
    rw [default_counts_of_mem (by decide) (by decide)]
    rfl

end Sys2Proof.Machine
end

section
/-!
PROOFS. The statements of spec 60_exceptions.md: no fault, total events, clamped widths (R95, R110).
-/

namespace Sys2Proof.Machine

/-- The clamp ends below `2 ^ CNT_W`, so the shadow register holds the clamped count itself, not a residue of it (R62, R65). -/
theorem setpwEvent_default_cmpShadow_toNat (us : Micros) (s : State) :
    (setpwEvent Config.params us s).cmpShadow.toNat = max 2000 (min 4000 (2 * us.toNat)) := by
  rw [setpwEvent_default]
  exact Nat.mod_eq_of_lt (by omega)

/-- Settles O17: `Fault` has no constructor, every arm of `exec` answers `.next`, and a SETPW stores the clamped count. -/
theorem nothingFaultsAndEveryEventIsTotal : Obligations.NothingFaultsAndEveryEventIsTotal := by
  refine ⟨nofun, fun i s => ⟨_, exec_eq_applyEvent i s⟩, fun us s => ?clamped⟩
  case clamped =>
    have hcount := setpwEvent_default_cmpShadow_toNat us s
    exact ⟨setpwEvent Config.params us s, exec_eq_applyEvent (.setpw us) s, by omega, by omega⟩

end Sys2Proof.Machine
end

section
/-!
PROOFS. The statements of spec 30_encoding.md section 2: the decoder, the encoder, and the match and mask rows.
-/

namespace Sys2Proof

/-! ## The fields of the word of an event -/

theorem legalEncoding (i : Instr) : Laws.LegalEncoding.Statement i := by
  cases i with
  | reset => exact Laws.LegalEncoding.reset
  | configure => exact Laws.LegalEncoding.configure
  | setpw us => exact Laws.LegalEncoding.setpw us
  | tick => exact Laws.LegalEncoding.tick
  | cycle sens => exact Laws.LegalEncoding.cycle sens

@[simp] theorem opField_encode (i : Instr) : opField (encode i) = opcode i := opField_eventWord _ _

@[simp] theorem argField_encode (i : Instr) : argField (encode i) = operand i := argField_eventWord _ _

/-- A word with the opcode and the operand of an event is the word of that event. -/
theorem eq_encode_of_fields {w : EventWord} {i : Instr} (ho : opField w = opcode i) (ha : argField w = operand i) :
    w = encode i :=
  eventWord_ext (ho.trans (opField_encode i).symm) (ha.trans (argField_encode i).symm)

/-! ## The decoder, opcode by opcode -/

theorem decode_eq_some_iff {w : EventWord} {i : Instr} : decode w = some i ↔ decodeVerdict w = .event i := by
  unfold decode
  cases decodeVerdict w <;> simp

theorem decode_eq_none_iff {w : EventWord} : decode w = none ↔ ∃ why, decodeVerdict w = .invalid why := by
  unfold decode
  cases decodeVerdict w <;> simp

/-- The opcodes whose events have no operand. -/
theorem decodeVerdict_plain {w : EventWord} {i : Instr} (hi : i = .reset ∨ i = .configure ∨ i = .tick)
    (ho : opField w = opcode i) : decodeVerdict w = decodePlain w i := by
  obtain rfl | rfl | rfl := hi <;> simp [decodeVerdict, ho, opcode]

theorem decodeVerdict_setpw {w : EventWord} (ho : opField w = 2#4) : decodeVerdict w = .event (.setpw (argField w)) := by
  simp [decodeVerdict, ho]

theorem decodeVerdict_cycle {w : EventWord} (ho : opField w = 4#4) : decodeVerdict w = decodeCycle w := by
  simp [decodeVerdict, ho]

theorem decodeVerdict_reserved {w : EventWord} (ho : 5 ≤ (opField w).toNat) :
    decodeVerdict w = .invalid (.reservedOpcode (opField w)) := by
  unfold decodeVerdict
  split
  iterate 5 · omega
  · rfl

/-- The operand of a CYCLE is a sensor vector with zeros above it, or it is too large (R52). -/
theorem decodeCycle_cases (w : EventWord) :
    (∃ v : SensorVector, argField w = v.setWidth 16 ∧ decodeCycle w = .event (.cycle v)) ∨
    (8 ≤ (argField w).toNat ∧ decodeCycle w = .invalid .cycleHighBits) := by
  have hhigh : (argField w).extractLsb' 3 13 = 0 ↔ (argField w).toNat < 8 := by
    rw [← BitVec.toNat_inj, BitVec.extractLsb'_toNat, Nat.shiftRight_eq_div_pow]
    have := (argField w).isLt
    simp only [BitVec.ofNat_eq_ofNat, BitVec.toNat_ofNat]
    omega
  by_cases h : (argField w).toNat < 8
  · refine .inl ⟨(argField w).extractLsb' 0 3, ?_, if_pos (hhigh.mpr h)⟩
    apply BitVec.eq_of_toNat_eq
    simp only [BitVec.toNat_setWidth, BitVec.extractLsb'_toNat, Nat.shiftRight_zero]
    omega
  · exact .inr ⟨Nat.le_of_not_lt h, if_neg (mt hhigh.mp h)⟩

/-- An event without operand is read off its word, or the operand is refused (R53). -/
theorem decodeVerdict_plain_cases {w : EventWord} {i : Instr} (hi : i = .reset ∨ i = .configure ∨ i = .tick)
    (ho : opField w = opcode i) :
    (w = encode i ∧ decodeVerdict w = .event i) ∨
    ((argField w).toNat ≠ 0 ∧ decodeVerdict w = .invalid (.operandNotZero (opField w))) := by
  have hzero : operand i = 0 := by obtain rfl | rfl | rfl := hi <;> rfl
  rw [decodeVerdict_plain hi ho]
  by_cases ha : argField w = 0
  · exact .inl ⟨eq_encode_of_fields ho (ha.trans hzero.symm), if_pos ha⟩
  · exact .inr ⟨fun h => ha (BitVec.eq_of_toNat_eq h), if_neg ha⟩

/-- The opcode field, sorted as the decoder sorts it: no operand, SETPW, CYCLE, reserved (R50). -/
theorem opField_cases (w : EventWord) :
    (∃ i : Instr, (i = .reset ∨ i = .configure ∨ i = .tick) ∧ opField w = opcode i) ∨
    opField w = 2#4 ∨ opField w = 4#4 ∨ 5 ≤ (opField w).toNat := by
  by_cases h5 : 5 ≤ (opField w).toNat
  · exact .inr (.inr (.inr h5))
  obtain h | h | h | h | h : opField w = 0#4 ∨ opField w = 1#4 ∨ opField w = 2#4 ∨ opField w = 3#4 ∨ opField w = 4#4 := by
    bv_omega
  · exact .inl ⟨.reset, .inl rfl, h⟩
  · exact .inl ⟨.configure, .inr (.inl rfl), h⟩
  · exact .inr (.inl h)
  · exact .inl ⟨.tick, .inr (.inr rfl), h⟩
  · exact .inr (.inr (.inl h))

/-- Everything the decoder can say of a word: the event whose word it is, or one of the three clauses of R53. -/
theorem decodeVerdict_cases (w : EventWord) :
    (∃ i, w = encode i ∧ decodeVerdict w = .event i) ∨
    (((opField w).toNat = 0 ∨ (opField w).toNat = 1 ∨ (opField w).toNat = 3) ∧ (argField w).toNat ≠ 0 ∧
      decodeVerdict w = .invalid (.operandNotZero (opField w))) ∨
    ((opField w).toNat = 4 ∧ 8 ≤ (argField w).toNat ∧ decodeVerdict w = .invalid .cycleHighBits) ∨
    (5 ≤ (opField w).toNat ∧ decodeVerdict w = .invalid (.reservedOpcode (opField w))) := by
  obtain ⟨i, hi, ho⟩ | ho | ho | ho := opField_cases w
  · obtain h | ⟨ha, hv⟩ := decodeVerdict_plain_cases hi ho
    · exact .inl ⟨i, h⟩
    · refine .inr (.inl ⟨?_, ha, hv⟩)
      obtain rfl | rfl | rfl := hi <;> simp [ho, opcode]
  · exact .inl ⟨.setpw (argField w), eq_encode_of_fields ho rfl, decodeVerdict_setpw ho⟩
  · rw [decodeVerdict_cycle ho]
    obtain ⟨v, ha, hv⟩ | ⟨ha, hv⟩ := decodeCycle_cases w
    · exact .inl ⟨.cycle v, eq_encode_of_fields ho ha, hv⟩
    · exact .inr (.inr (.inl ⟨by simp [ho], ha, hv⟩))
  · exact .inr (.inr (.inr ⟨ho, decodeVerdict_reserved ho⟩))

/-! ## Decoding and encoding agree -/

/-- Settles O8: the word of an event is legal, so the decoder does not refuse it, and its fields name one event. -/
theorem decodeOfEncodeIsTheEvent : Obligations.DecodeOfEncodeIsTheEvent := by
  intro i
  rw [decode_eq_some_iff]
  cases i with
  | reset => rfl
  | configure => rfl
  | setpw us => rw [decodeVerdict_setpw (opField_encode _), argField_encode]; rfl
  | tick => rfl
  | cycle v =>
    rw [decodeVerdict_cycle (opField_encode _)]
    revert v
    decide

theorem decodeVerdict_encode (i : Instr) : decodeVerdict (encode i) = .event i :=
  decode_eq_some_iff.mp (decodeOfEncodeIsTheEvent i)

theorem eq_encode_of_decodeVerdict {w : EventWord} {i : Instr} (h : decodeVerdict w = .event i) : w = encode i := by
  obtain ⟨j, hw, hj⟩ | ⟨-, -, hv⟩ | ⟨-, -, hv⟩ | ⟨-, hv⟩ := decodeVerdict_cases w
  · obtain rfl : j = i := Verdict.event.inj (hj.symm.trans h)
    exact hw
  · cases hv.symm.trans h
  · cases hv.symm.trans h
  · cases hv.symm.trans h

/-- Settles O9: an event is read only off its own word, and off that word it is read (O8). -/
theorem wordSpellsOneEvent : Obligations.WordSpellsOneEvent := by
  intro w i
  refine ⟨fun h => eq_encode_of_decodeVerdict (decode_eq_some_iff.mp h), fun h => ?_⟩
  rw [h]
  exact decodeOfEncodeIsTheEvent i

/-- The legal words as the three clauses of R53 leave them, over the numbers of the fields. -/
theorem legalWord_iff (w : EventWord) :
    LegalWord w ↔ ¬ 5 ≤ (opField w).toNat ∧
      ¬ (((opField w).toNat = 0 ∨ (opField w).toNat = 1 ∨ (opField w).toNat = 3) ∧ (argField w).toNat ≠ 0) ∧
      ¬ ((opField w).toNat = 4 ∧ 8 ≤ (argField w).toNat) := by
  have hop (n : BitVec 4) : opField w = n ↔ (opField w).toNat = n.toNat := BitVec.toNat_inj.symm
  have harg : argField w = 0 ↔ (argField w).toNat = 0 := BitVec.toNat_inj.symm
  unfold LegalWord opListed plainOperandZero cycleHighBitsZero
  rw [hop 0, hop 1, hop 3, hop 4, harg]
  simp only [BitVec.ofNat_eq_ofNat, BitVec.toNat_ofNat]
  omega

/-- Settles O10: on a legal word the decoder reads an event, and the three refusals have disjoint conditions. -/
theorem decoderRefusesExactlyTheIllegalWords : Obligations.DecoderRefusesExactlyTheIllegalWords := by
  intro w op arg
  obtain ⟨i, rfl, hv⟩ | h := decodeVerdict_cases w
  · obtain ⟨hlegal, -⟩ := legalEncoding i
    obtain ⟨hlisted, hplain, hcycle⟩ := (legalWord_iff _).mp hlegal
    simp only [decode_eq_none_iff, hv]
    refine ⟨?_, ?_, ?_, ?_⟩ <;> simp <;> omega
  · obtain ⟨ho, ha, hv⟩ | ⟨ho, ha, hv⟩ | ⟨ho, hv⟩ := h <;> simp only [decode_eq_none_iff, hv] <;>
      refine ⟨?_, ?_, ?_, ?_⟩ <;> simp <;> omega

/-- Settles O12 by evaluating the decoder on the ten words. -/
theorem decodesTheWordsTheSpecWritesOut : Obligations.DecodesTheWordsTheSpecWritesOut := by
  unfold Obligations.DecodesTheWordsTheSpecWritesOut
  decide

/-! ## The match and mask rows -/

theorem rowOf_mem (i : Instr) : rowOf i ∈ opcodeRows := by
  cases i <;> simp [rowOf, opcodeRows]

theorem rowOf_covers_encode (i : Instr) : (rowOf i).covers (encode i) = true := by
  obtain ⟨-, -, -, h⟩ := legalEncoding i
  exact h

/-- Each row's mask has ones in all of the opcode field, so a covered word has the opcode of the row's pattern (R50). -/
theorem opField_eq_of_covers {r : OpcodeRow} (hr : r ∈ opcodeRows) {w : EventWord} (h : r.covers w = true) :
    opField w = opField r.pattern := by
  have hmask : ∀ r ∈ opcodeRows, opField r.mask = BitVec.allOnes 4 := by decide
  have hpat : w &&& r.mask = r.pattern := by simpa [OpcodeRow.covers] using h
  calc opField w
    _ = opField w &&& opField r.mask := by rw [hmask r hr, BitVec.and_allOnes]
    _ = opField (w &&& r.mask) := BitVec.extractLsb'_and.symm
    _ = opField r.pattern := by rw [hpat]

/-- The rows have different opcodes, so no word falls under two. -/
theorem row_eq_of_covers {r r' : OpcodeRow} (hr : r ∈ opcodeRows) (hr' : r' ∈ opcodeRows) {w : EventWord}
    (h : r.covers w = true) (h' : r'.covers w = true) : r = r' := by
  have hinj : ∀ r ∈ opcodeRows, ∀ r' ∈ opcodeRows, opField r.pattern = opField r'.pattern → r = r' := by decide
  exact hinj r hr r' hr' ((opField_eq_of_covers hr h).symm.trans (opField_eq_of_covers hr' h'))

/-- A word under a row is the word of an event. -/
theorem exists_encode_of_covers {r : OpcodeRow} (hr : r ∈ opcodeRows) {w : EventWord} (h : r.covers w = true) :
    ∃ i, w = encode i := by
  have ho := opField_eq_of_covers hr h
  simp only [opcodeRows, List.mem_cons, List.not_mem_nil, or_false] at hr
  obtain rfl | rfl | rfl | rfl | rfl := hr
  · exact ⟨.reset, BitVec.eq_of_toNat_eq ((rowReset_covers_iff w).mp h)⟩
  · exact ⟨.configure, BitVec.eq_of_toNat_eq ((rowConfigure_covers_iff w).mp h)⟩
  · exact ⟨.setpw (argField w), eq_encode_of_fields ho rfl⟩
  · exact ⟨.tick, BitVec.eq_of_toNat_eq ((rowTick_covers_iff w).mp h)⟩
  · obtain ⟨v, ha, -⟩ | ⟨ha, -⟩ := decodeCycle_cases w
    · exact ⟨.cycle v, eq_encode_of_fields ho ha⟩
    · have hrow := (rowCycle_covers_iff w).mp h
      rw [argField_toNat] at ha
      omega

/-- Settles O11: a decoded word is its event's word, which falls under that event's row and no other; a word under a row
decodes. -/
theorem matchAndMaskRowsAgreeWithTheDecoder : Obligations.MatchAndMaskRowsAgreeWithTheDecoder := by
  refine fun w => ⟨fun i hd r hr => ?decoded, fun hd r hr => ?refused⟩
  case decoded =>
    obtain rfl := (wordSpellsOneEvent w i).mp hd
    refine ⟨fun h => row_eq_of_covers hr (rowOf_mem i) h (rowOf_covers_encode i), fun h => ?_⟩
    rw [h]
    exact rowOf_covers_encode i
  case refused =>
    rw [Bool.eq_false_iff]
    intro h
    obtain ⟨i, rfl⟩ := exists_encode_of_covers hr h
    cases hd.symm.trans (decodeOfEncodeIsTheEvent i)

end Sys2Proof
end

section
/-!
PROOFS. The step over waiting inputs (spec 20_memory.md R36; 30_encoding.md R53, R57; 00_scope.md section 4).
-/

namespace Sys2Proof.Machine

/-! ## What no event and no edge touches -/

theorem runEvents_pre_inputs (p : Params) (es : List Instr) (s : State) :
    (runEvents p es s).pre = s.pre ∧ (runEvents p es s).inputs = s.inputs := by
  induction es generalizing s with
  | nil => exact ⟨rfl, rfl⟩
  | cons i es ih =>
    obtain ⟨hpre, hinputs⟩ := applyEvent_pre_inputs p i s
    obtain ⟨hpre', hinputs'⟩ := ih (applyEvent p i s)
    exact ⟨hpre'.trans hpre, hinputs'.trans hinputs⟩

theorem runEvents_setInputs (p : Params) (es : List Instr) (rest : List Input) (s : State) :
    runEvents p es (setInputs rest s) = setInputs rest (runEvents p es s) := by
  induction es generalizing s with
  | nil => rfl
  | cons i es ih => exact (congrArg _ (applyEvent_setInputs p i rest s)).trans (ih _)

theorem strobes_pre_inputs (p : Params) (pins : Pins) (s : State) :
    (strobes p pins s).pre = s.pre ∧ (strobes p pins s).inputs = s.inputs := by
  rw [strobes_eq_runEvents]
  exact runEvents_pre_inputs ..

theorem advancePhase_atLast (p : Params) {s : State} (h : s.pre = p.prescaler - 1) :
    advancePhase p s = tickEvent p (setPre 0 s) := if_pos h

theorem advancePhase_before (p : Params) {s : State} (h : s.pre ≠ p.prescaler - 1) :
    advancePhase p s = setPre (s.pre + 1) s := if_neg h

/-- Moving the phase gives a TICK, or moves the phase only (R57). -/
theorem advancePhase_cases (p : Params) (s : State) :
    (s.pre = p.prescaler - 1 ∧ advancePhase p s = tickEvent p (setPre 0 s)) ∨
    (s.pre ≠ p.prescaler - 1 ∧ advancePhase p s = setPre (s.pre + 1) s) := by
  by_cases h : s.pre = p.prescaler - 1
  · exact .inl ⟨h, advancePhase_atLast p h⟩
  · exact .inr ⟨h, advancePhase_before p h⟩

theorem advancePhase_inputs (p : Params) (s : State) : (advancePhase p s).inputs = s.inputs := by
  obtain ⟨-, h⟩ | ⟨-, h⟩ := advancePhase_cases p s <;> rw [h]
  · exact (applyEvent_pre_inputs p .tick _).2
  · rfl

/-- A clock edge leaves the inputs that still wait as they are (log 4). -/
theorem clockEdge_inputs (p : Params) (pins : Pins) (s : State) : (clockEdge p pins s).inputs = s.inputs := by
  obtain ⟨-, hstrobes⟩ := strobes_pre_inputs p pins s
  obtain ⟨-, h⟩ | ⟨-, -, h⟩ | ⟨-, -, -, h⟩ | ⟨-, -, -, h⟩ := clockEdge_cases p pins s <;> rw [h]
  · rfl
  · exact hstrobes
  · exact (advancePhase_inputs p _).trans hstrobes
  · exact hstrobes

/-! ## One step, by the oldest input -/

theorem step_word {s : State} {w : EventWord} {rest : List Input} {i : Instr} (h : s.inputs = .word w :: rest)
    (hv : decodeVerdict w = .event i) : step s = exec i (setInputs rest s) := by
  simp [step, takeInput, h, hv]

theorem step_illegalWord {s : State} {w : EventWord} {rest : List Input} {why : IllegalWord}
    (h : s.inputs = .word w :: rest) (hv : decodeVerdict w = .invalid why) :
    step s = .refused (.illegalEventWord w why) := by
  simp [step, takeInput, h, hv]

theorem step_edge {s : State} {pins : Pins} {rest : List Input} (h : s.inputs = .edge pins :: rest) :
    step s = .next (clockEdge Config.params pins (setInputs rest s)) := by
  simp [step, takeInput, h]

theorem step_idle {s : State} (h : s.inputs = []) : step s = .next s := by
  simp [step, takeInput, h]

/-- Settles O13: the decoder's verdict on the word is that event. -/
theorem stepRunsTheDecodedEvent : Obligations.StepRunsTheDecodedEvent :=
  fun _ _ _ _ h hd => step_word h (decode_eq_some_iff.mp hd)

/-- Settles O14: the decoder's verdict on the word names the clause. -/
theorem stepRefusesAnIllegalWord : Obligations.StepRefusesAnIllegalWord := by
  intro s w rest h hd
  obtain ⟨why, hv⟩ := decode_eq_none_iff.mp hd
  exact ⟨why, hv, step_illegalWord h hv⟩

/-- Settles O15: the two ways of `takeInput` that decode nothing. -/
theorem stepAppliesAClockEdgeOrIdles : Obligations.StepAppliesAClockEdgeOrIdles :=
  fun _ => ⟨fun _ _ => step_edge, step_idle⟩

/-! ## A placed word -/

/-- A table word that decodes is an event word that decodes. -/
theorem exists_word_of_decodeTableWord {nbits w : Nat} {i : Instr} (h : decodeTableWord nbits w = some i) :
    ∃ e, tableWord nbits w = some e ∧ decode e = some i := by
  unfold decodeTableWord at h
  cases ht : tableWord nbits w with
  | none => simp [ht] at h
  | some e => exact ⟨e, rfl, by simpa [ht] using h⟩

theorem withFetchWord_of_tableWord {nbits w : Nat} {e : EventWord} (h : tableWord nbits w = some e) (s : State) :
    s.withFetchWord nbits w = pushInput (.word e) s := by
  simp [State.withFetchWord, h]

/-- Settles O16: the placed word is the oldest input, and taking it away again gives the state before. -/
theorem placedTableWordRunsNext : Obligations.PlacedTableWordRunsNext := by
  intro s nbits w i h
  obtain ⟨e, ht, hd⟩ := exists_word_of_decodeTableWord h
  rw [withFetchWord_of_tableWord ht]
  exact step_word (pushInput_inputs s _) (decode_eq_some_iff.mp hd)

/-! ## Runs of steps -/

theorem step_encode {s : State} {i : Instr} {rest : List Input} (h : s.inputs = .word (encode i) :: rest) :
    step s = .next (applyEvent Config.params i (setInputs rest s)) :=
  (step_word h (decodeVerdict_encode i)).trans (exec_eq_applyEvent ..)

/-- Each step takes one word away and applies its event, which commutes with dropping inputs (log 4). -/
theorem core_run_words (es : List Instr) (rest : List Input) {s : State}
    (h : s.inputs = es.map (fun i => Input.word (encode i)) ++ rest) :
    Host.Core.run core es.length s = .next (setInputs rest (runEvents Config.params es s)) := by
  induction es generalizing s with
  | nil =>
    obtain rfl : s.inputs = rest := h
    rfl
  | cons i es ih =>
    have hwaiting := (applyEvent_pre_inputs Config.params i (setInputs (es.map (fun i => .word (encode i)) ++ rest) s)).2
    calc Host.Core.run core (es.length + 1) s
      _ = Host.Core.run core es.length _ := core_run_next core (step_encode h)
      _ = .next (setInputs rest (runEvents Config.params es _)) := ih hwaiting
      _ = .next (setInputs rest (runEvents Config.params es (applyEvent Config.params i s))) := by
          rw [applyEvent_setInputs, runEvents_setInputs]
          rfl

/-- Settles O18 by `core_run_words`, an induction on the events. -/
theorem queuedWordsRunTheirEventsInOrder : Obligations.QueuedWordsRunTheirEventsInOrder :=
  fun es rest _ => core_run_words es rest

/-! ## Legal inputs -/

/-- A word the decoder refuses is not legal (R53). -/
theorem not_legalWord_of_invalid {w : EventWord} {why : IllegalWord} (h : decodeVerdict w = .invalid why) :
    ¬ LegalWord w := by
  rw [legalWord_iff]
  rintro ⟨hlisted, hplain, hcycle⟩
  obtain ⟨i, -, hv⟩ | ⟨ho, ha, -⟩ | ⟨ho, ha, -⟩ | ⟨ho, -⟩ := decodeVerdict_cases w
  · cases hv.symm.trans h
  · exact hplain ⟨ho, ha⟩
  · exact hcycle ⟨ho, ha⟩
  · exact hlisted ho

theorem safeInputs_of_tail {s t : State} (hs : SafeInputs s) (h : t.inputs = s.inputs.tail) : SafeInputs t :=
  fun q hq => hs q (List.mem_of_mem_tail (h ▸ hq))

/-- Settles O53: a legal word is not refused, and neither an event nor an edge writes the inputs, so the rest waits. -/
theorem legalInputsNeverStopTheMachine : Obligations.LegalInputsNeverStopTheMachine := by
  intro s hs
  have done {t : State} (hstep : step s = .next t) (ht : t.inputs = s.inputs.tail) :
      ∃ t : State, step s = .next t ∧ t.inputs = s.inputs.tail ∧ SafeInputs t :=
    ⟨t, hstep, ht, safeInputs_of_tail hs ht⟩
  obtain ⟨h, hstep⟩ | ⟨w, rest, i, h, -, hstep⟩ | ⟨w, rest, why, h, hv, -⟩ | ⟨pins, rest, h, hstep⟩ := step_cases s
  · exact done hstep (by rw [h]; rfl)
  · exact done hstep ((applyEvent_pre_inputs ..).2.trans (by rw [h]; rfl))
  · have hlegal : legalInput (.word w) = true := hs _ (by simp [h])
    exact absurd (of_decide_eq_true hlegal) (not_legalWord_of_invalid hv)
  · exact done hstep ((clockEdge_inputs ..).trans (by rw [h]; rfl))

end Sys2Proof.Machine
end

section
/-!
PROOFS. The parameters of a built machine and its arithmetic (spec 00_scope.md R6; 40_frame_generator.md R60 to R63).
-/

namespace Sys2Proof

namespace Params

/-! ## The conversion and the clamp -/

theorem conv_mono (p : Params) : Monotone p.conv :=
  fun _ _ h => Nat.div_le_div_right (Nat.mul_le_mul_left _ h)

theorem clampc_eq_min_max (p : Params) (h : p.minCounts ≤ p.maxCounts) (c : Nat) :
    p.clampc c = min (max c p.minCounts) p.maxCounts := by
  unfold clampc
  split
  · omega
  · split <;> omega

theorem default_valid : Config.params.Valid := by decide

section Valid

variable {p : Params} (h : p.Valid)
include h

theorem top_lt : p.top < 65536 := by
  obtain ⟨-, -, h3, -⟩ := h
  exact h3

theorem maxCounts_le_top : p.maxCounts ≤ p.top := by
  obtain ⟨-, -, -, -, h5, -⟩ := h
  exact h5

theorem one_le_minCounts : 1 ≤ p.minCounts := by
  obtain ⟨-, -, -, -, -, h6, -⟩ := h
  exact h6

theorem one_le_prescaler : 1 ≤ p.prescaler := by
  obtain ⟨⟨-, hps, -⟩, -⟩ := h
  exact hps

theorem one_le_cycleMs : 1 ≤ p.cycleMs := by
  obtain ⟨-, -, -, -, -, -, -, ⟨-, hc⟩, -⟩ := h
  exact hc

theorem one_le_holdMs : 1 ≤ p.holdMs := by
  obtain ⟨-, -, -, -, -, -, -, ⟨hh, -⟩, -⟩ := h
  exact hh

/-- The hold duration fits in `ELAPSED_W` bits (V8, V9). -/
theorem holdMs_lt : p.holdMs < 8192 := by
  have hc := one_le_cycleMs h
  obtain ⟨-, -, -, -, -, -, -, -, h9⟩ := h
  have : p.holdMs - 1 + p.cycleMs < 8192 := h9
  omega

theorem clampc_toNat (c : Nat) : (BitVec.ofNat 16 (p.clampc c)).toNat = p.clampc c :=
  Nat.mod_eq_of_lt (clampc_lt h c)

/-- The neutral width passes the clamp (V4). -/
theorem clampc_conv_neutralUs : p.clampc (p.conv p.neutralUs) = p.neutralCounts :=
  clampc_of_mem p (counts_ordered h).1 (counts_ordered h).2

theorem neutralCounts_toNat : (BitVec.ofNat 16 p.neutralCounts).toNat = p.neutralCounts := by
  rw [← clampc_conv_neutralUs h]
  exact clampc_toNat h _

theorem clampc_inRange (c : Nat) : Machine.InRange p (BitVec.ofNat 16 (p.clampc c)) := by
  unfold Machine.InRange
  rw [clampc_toNat h]
  exact clampc_bounds p ((counts_ordered h).1.trans (counts_ordered h).2) c

theorem neutralCounts_inRange : Machine.InRange p (BitVec.ofNat 16 p.neutralCounts) := by
  rw [← clampc_conv_neutralUs h]
  exact clampc_inRange h _

/-- A frame has as many ticks as the quotient of R60 says: `TOP` is one less, and the quotient is not 0 (V2). -/
theorem frameTicks_eq_div : p.frameTicks = p.clkHz / (p.prescaler * 50) := by
  obtain ⟨⟨-, -, hframe⟩, h2, -⟩ := h
  unfold V2 at h2
  rw [hframe] at h2
  unfold frameTicks top
  rw [hframe]
  omega

end Valid

/-- Settles O20: a floor division is monotone, and a monotone function commutes with `min` and `max`. -/
theorem conversionIsMonotoneAndClampsEitherWay : Obligations.ConversionIsMonotoneAndClampsEitherWay := by
  refine ⟨fun p _ _ h => p.conv_mono h, fun p u h => ?_⟩
  calc p.clampc (p.conv u)
    _ = min (max (p.conv u) (p.conv p.minUs)) (p.conv p.maxUs) := clampc_eq_min_max p (p.conv_mono h) _
    _ = p.conv (min (max u p.minUs) p.maxUs) := by rw [p.conv_mono.map_min, p.conv_mono.map_max]

/-- Settles O21: the two bounds of a floor division by the clocks of one tick in 50 frames. -/
theorem frameIsTwentyMillisecondsWithinOneTick : Obligations.FrameIsTwentyMillisecondsWithinOneTick := by
  intro p hp
  have hpos : 0 < p.prescaler * 50 := by have := one_le_prescaler hp; omega
  have hclocks : p.frameClocks * 50 = p.clkHz / (p.prescaler * 50) * (p.prescaler * 50) := by
    rw [frameClocks, frameTicks_eq_div hp, Nat.mul_assoc]
  have hle := Nat.div_mul_le_self p.clkHz (p.prescaler * 50)
  have hlt := Nat.lt_div_mul_add hpos (a := p.clkHz)
  omega

end Params

namespace Machine

/-! ## Instantiation -/

theorem stepWith_default : stepWith Config.params = step := by
  have hexec : execWith Config.params = exec := funext₂ fun i s => (exec_eq_applyEvent i s).symm
  exact funext fun s => by rw [stepWith, hexec, step]

/-- Settles O19: `instantiate` decides `Valid`, the conjunction of V1 to V9; the step at the default set is `step`. -/
theorem onlyValidParametersAreInstantiated : Obligations.OnlyValidParametersAreInstantiated := by
  refine ⟨fun p => ?_, ?_⟩
  · change _ ↔ p.Valid
    by_cases h : p.Valid
    · exact iff_of_true (by simp [instantiate, if_pos h]) h
    · exact iff_of_false (by simp [instantiate, if_neg h]) h
  · rw [instantiate, if_pos Params.default_valid, stepWith_default]
    rfl

/-! ## No stored value wraps -/

/-- Inside a frame the counter has room for one more count (V3). -/
theorem advanceCount_cnt_toNat {p : Params} (hp : p.Valid) {s : State} (h : s.cnt.toNat < p.top) :
    (advanceCount s).cnt.toNat = s.cnt.toNat + 1 := by
  have := Params.top_lt hp
  exact Nat.mod_eq_of_lt (by omega)

/-- The hold timer of a hold that goes on fits its register (V9). -/
theorem elapsed_toNat_of_lt {p : Params} (hp : p.Valid) {n : Nat} (h : n < p.holdMs) :
    (BitVec.ofNat 13 n).toNat = n :=
  Nat.mod_eq_of_lt (h.trans (Params.holdMs_lt hp))

theorem transition_of_holding (p : Params) (v : SensorVector) {c : Controller} (hst : c.st = .active)
    (h : c.elapsed.toNat + p.cycleMs < p.holdMs) :
    transition p v c = ⟨.active, c.sel, BitVec.ofNat 13 (c.elapsed.toNat + p.cycleMs)⟩ :=
  (transition_of_active p v hst).trans (if_pos h)

theorem transition_of_expired (p : Params) (v : SensorVector) {c : Controller} (hst : c.st = .active)
    (h : ¬ c.elapsed.toNat + p.cycleMs < p.holdMs) : transition p v c = readyController :=
  (transition_of_active p v hst).trans (if_neg h)

/-- Settles O22: the clamped counts, the counter below `TOP` and the timer below `HOLD_MS` fit their registers. -/
theorem noStoredValueWraps : Obligations.NoStoredValueWraps := by
  intro p s hp ⟨hcnt, _⟩
  refine ⟨fun us => Params.clampc_toNat hp _, fun hr ht => ?tick, fun v hst h => ?timer, fun v => Params.clampc_toNat hp _,
    Params.neutralCounts_toNat hp, Params.neutralCounts_toNat hp⟩
  case tick =>
    rw [tickEvent_inside p hr ht]
    exact advanceCount_cnt_toNat hp (lt_of_le_of_ne hcnt ht)
  case timer =>
    calc (cycleEvent p v s).elapsed.toNat
      _ = (transition p v (controllerOf s)).elapsed.toNat := rfl
      _ = (BitVec.ofNat 13 (s.elapsed.toNat + p.cycleMs)).toNat := by
          rw [transition_of_holding p v (c := controllerOf s) hst h]
          rfl
      _ = s.elapsed.toNat + p.cycleMs := elapsed_toNat_of_lt hp h

end Machine
end Sys2Proof
end

section
/-!
PROOFS. What every event does to the two halves (spec 42_system_and_boundary.md R107, R108; 10_state.md R20).
-/

namespace Sys2Proof.Machine

/-! ## One event, seen from each half -/

/-- Every event is no event of the controller, or one (R107). -/
theorem unitOf_applyEvent_cases (p : Params) (i : Instr) (s : State) :
    unitOf (applyEvent p i s) = unitOf s ∨ ∃ e, unitOf (applyEvent p i s) = applyUnit p e (unitOf s) := by
  cases i with
  | reset => exact .inr ⟨_, unitOf_reset p s⟩
  | configure => exact .inl (unitOf_configure s)
  | setpw us => exact .inl (unitOf_setPulseWidth p s us.toNat)
  | tick => exact .inl (unitOf_tick p s)
  | cycle v => exact .inr ⟨_, unitOf_cycle p s v⟩

/-- RESET and CYCLE are the controller's events; no other touches its half (R20). -/
theorem unitOf_applyEvent_other (p : Params) {i : Instr} (hr : i ≠ .reset) (hc : ∀ v, i ≠ .cycle v) (s : State) :
    unitOf (applyEvent p i s) = unitOf s := by
  cases i with
  | reset => exact absurd rfl hr
  | configure => exact unitOf_configure s
  | setpw us => exact unitOf_setPulseWidth p s us.toNat
  | tick => exact unitOf_tick p s
  | cycle v => exact absurd rfl (hc v)

theorem unitOf_eq_iff {s t : State} : unitOf s = unitOf t ↔ controllerOf s = controllerOf t ∧ s.ind = t.ind := by
  simp [unitOf]

@[simp] theorem configureEvent_cmpShadow (s : State) : (configureEvent s).cmpShadow = s.cmpShadow := by
  obtain ⟨-, h⟩ | ⟨-, h⟩ := configureEvent_cases s <;> rw [h]
  rfl

@[simp] theorem tickEvent_cmpShadow (p : Params) (s : State) : (tickEvent p s).cmpShadow = s.cmpShadow := by
  obtain ⟨-, h⟩ | ⟨-, -, h⟩ | ⟨-, -, h⟩ := tickEvent_cases p s <;> rw [h] <;> rfl

@[simp] theorem tickEvent_run (p : Params) (s : State) : (tickEvent p s).run = s.run := by
  obtain ⟨-, h⟩ | ⟨-, -, h⟩ | ⟨-, -, h⟩ := tickEvent_cases p s <;> rw [h] <;> rfl

/-! ## Ownership -/

/-- The counter and the width of the frame belong to RESET, CONFIGURE and TICK (R20). -/
theorem applyEvent_keeps_counter (p : Params) {i : Instr} (hr : i ≠ .reset) (hc : i ≠ .configure) (ht : i ≠ .tick)
    (s : State) : (applyEvent p i s).cnt = s.cnt ∧ (applyEvent p i s).cmpActive = s.cmpActive := by
  cases i with
  | reset => exact absurd rfl hr
  | configure => exact absurd rfl hc
  | setpw us => exact ⟨rfl, rfl⟩
  | tick => exact absurd rfl ht
  | cycle v => exact ⟨rfl, rfl⟩

theorem applyEvent_keeps_run (p : Params) {i : Instr} (hr : i ≠ .reset) (hc : i ≠ .configure) (s : State) :
    (applyEvent p i s).run = s.run := by
  cases i with
  | reset => exact absurd rfl hr
  | configure => exact absurd rfl hc
  | setpw us => rfl
  | tick => exact tickEvent_run p s
  | cycle v => rfl

/-- The shadow register belongs to RESET, SETPW and CYCLE (R20). -/
theorem applyEvent_keeps_shadow (p : Params) {i : Instr} (hr : i ≠ .reset) (hs : ∀ us, i ≠ .setpw us)
    (hc : ∀ v, i ≠ .cycle v) (s : State) : (applyEvent p i s).cmpShadow = s.cmpShadow := by
  cases i with
  | reset => exact absurd rfl hr
  | configure => exact configureEvent_cmpShadow s
  | setpw us => exact absurd rfl (hs us)
  | tick => exact tickEvent_cmpShadow p s
  | cycle v => exact absurd rfl (hc v)

theorem applyEvent_of_exec {i : Instr} {s t : State} (h : exec i s = .next t) : applyEvent Config.params i s = t :=
  Host.Outcome.next.inj ((exec_eq_applyEvent i s).symm.trans h)

/-- Settles O27: one frame lemma per element. -/
theorem eachElementChangesOnlyByItsOwner : Obligations.EachElementChangesOnlyByItsOwner := by
  intro i s t h
  obtain rfl := applyEvent_of_exec h
  refine ⟨fun hr hc => ?_, fun hr hc ht => applyEvent_keeps_counter _ hr hc ht s,
    fun hr hc => applyEvent_keeps_run _ hr hc s, fun hr hs hc => applyEvent_keeps_shadow _ hr hs hc s, applyEvent_pre_inputs _ i s⟩
  obtain ⟨hctl, hind⟩ := unitOf_eq_iff.mp (unitOf_applyEvent_other Config.params hr hc s)
  obtain ⟨hst, hsel, hel⟩ := Controller.mk.inj hctl
  exact ⟨hst, hsel, hel, hind⟩

/-! ## The halves do not read each other -/

/-- The controller's half after an event depends on the controller's half alone. -/
theorem unitOf_applyEvent_congr (p : Params) (i : Instr) {s t : State} (h : unitOf s = unitOf t) :
    unitOf (applyEvent p i s) = unitOf (applyEvent p i t) := by
  cases i with
  | reset => exact (unitOf_reset p s).trans (unitOf_reset p t).symm
  | configure => exact (unitOf_configure s).trans (h.trans (unitOf_configure t).symm)
  | setpw us => exact h
  | tick => exact (unitOf_tick p s).trans (h.trans (unitOf_tick p t).symm)
  | cycle v => exact congrArg (applyUnit p (.cycle v)) h

/-- The generator's half after an event that is no CYCLE depends on the generator's half alone. -/
theorem generatorOf_applyEvent_congr (p : Params) {i : Instr} (hc : ∀ v, i ≠ .cycle v) {s t : State}
    (h : generatorOf s = generatorOf t) : generatorOf (applyEvent p i s) = generatorOf (applyEvent p i t) := by
  cases i with
  | reset => rfl
  | configure => exact (generatorOf_configure p s).trans (h ▸ (generatorOf_configure p t).symm)
  | setpw us => exact congrArg (applyGenerator p (.setpw us.toNat)) h
  | tick => exact (generatorOf_tick p s).trans (h ▸ (generatorOf_tick p t).symm)
  | cycle v => exact absurd rfl (hc v)

/-- Settles O28: the two congruences, and the shadow a CYCLE writes is read off the controller's half. -/
theorem halvesDoNotReadEachOther : Obligations.HalvesDoNotReadEachOther := by
  intro i s t s' t' hs ht
  obtain rfl := applyEvent_of_exec hs
  obtain rfl := applyEvent_of_exec ht
  refine ⟨fun hctl hind => ?_, fun hc hg => generatorOf_applyEvent_congr _ hc hg, ?_⟩
  · exact unitOf_eq_iff.mp (unitOf_applyEvent_congr _ i (unitOf_eq_iff.mpr ⟨hctl, hind⟩))
  · rintro v rfl hctl
    exact congrArg (fun c => BitVec.ofNat 16 (Config.params.clampc
      (Config.params.conv (commandUs Config.params (transition Config.params v c))))) hctl

/-! ## The composition -/

/-- The generator's event that an event of the whole machine is, a CYCLE being a SETPW of what the controller commands. -/
def generatorEventOf (p : Params) (i : Instr) (u : ControllerUnit) : GeneratorEvent :=
  match i with
  | .reset => .reset
  | .configure => .configure
  | .setpw us => .setpw us.toNat
  | .tick => .tick
  | .cycle v => .setpw (commandUs p (unitCycle p v u).ctl)

theorem generatorOf_applyEvent (p : Params) (i : Instr) (s : State) :
    generatorOf (applyEvent p i s) = applyGenerator p (generatorEventOf p i (unitOf s)) (generatorOf s) := by
  cases i with
  | reset => exact generatorOf_reset p s
  | configure => exact generatorOf_configure p s
  | setpw us => exact generatorOf_setPulseWidth p s us.toNat
  | tick => exact generatorOf_tick p s
  | cycle v => exact generatorOf_cycle p s v

/-- The generator's events of a run are those of its first event and of the rest, the controller's half moved on. -/
theorem feed_cons (p : Params) (i : Instr) (es : List Instr) (s : State) :
    feed (i :: es) (unitTrace p (unitEvents (i :: es)) (unitOf s)) =
      generatorEventOf p i (unitOf s) ::
        feed es (unitTrace p (unitEvents es) (unitOf (applyEvent p i s))) := by
  cases i with
  | reset => rfl
  | configure => exact congrArg (fun u => _ :: feed es (unitTrace p (unitEvents es) u)) (unitOf_configure s).symm
  | setpw us => rfl
  | tick => exact congrArg (fun u => _ :: feed es (unitTrace p (unitEvents es) u)) (unitOf_tick p s).symm
  | cycle v => rfl

/-- Along every run the controller's half goes as the controller machine (R107). -/
theorem unitOf_runEvents (p : Params) (es : List Instr) (s : State) :
    unitOf (runEvents p es s) = runUnit p (unitEvents es) (unitOf s) := by
  induction es generalizing s with
  | nil => rfl
  | cons i es ih =>
    refine (ih (applyEvent p i s)).trans ?_
    cases i with
    | reset => rfl
    | configure => exact congrArg (runUnit p (unitEvents es)) (unitOf_configure s)
    | setpw us => rfl
    | tick => exact congrArg (runUnit p (unitEvents es)) (unitOf_tick p s)
    | cycle v => rfl

/-- Along every run the generator's half goes as the generator machine, fed by the controller's stream (R107). -/
theorem generatorOf_runEvents (p : Params) (es : List Instr) (s : State) :
    generatorOf (runEvents p es s) =
      runGenerator p (feed es (unitTrace p (unitEvents es) (unitOf s))) (generatorOf s) := by
  induction es generalizing s with
  | nil => rfl
  | cons i es ih =>
    rw [feed_cons]
    exact (ih (applyEvent p i s)).trans (congrArg _ (generatorOf_applyEvent p i s))

/-- Every event of a run is one event of the generator. -/
theorem feed_length (p : Params) (es : List Instr) (s : State) :
    (feed es (unitTrace p (unitEvents es) (unitOf s))).length = es.length := by
  induction es generalizing s with
  | nil => rfl
  | cons i es ih =>
    rw [feed_cons]
    exact congrArg (· + 1) (ih (applyEvent p i s))

/-- The controller's stream has one pair for each CYCLE (R108). -/
theorem unitTrace_length (p : Params) (es : List Instr) (u : ControllerUnit) :
    (unitTrace p (unitEvents es) u).length = (sensesOf es).length := by
  induction es generalizing u with
  | nil => rfl
  | cons i es ih =>
    cases i with
    | reset => exact ih unitReset
    | configure => exact ih u
    | setpw us => exact ih u
    | tick => exact ih u
    | cycle v => exact congrArg (· + 1) (ih (unitCycle p v u))

/-- Settles O54: both halves by induction over the run; the outputs are functions of the halves. -/
theorem halvesComposeToTheMachine : Obligations.HalvesComposeToTheMachine := by
  intro p es s out u g
  have hu : unitOf (runEvents p es s) = u := unitOf_runEvents p es s
  have hg : generatorOf (runEvents p es s) = g := generatorOf_runEvents p es s
  refine ⟨hu, hg, unitTrace_length p es _, feed_length p es s, ?_⟩
  rw [← hu, ← hg]
  rfl

end Sys2Proof.Machine
end

section
/-!
PROOFS. The invariants of spec 10_state.md R19: what holds at reset and at every event holds at every step of every run.
-/

namespace Sys2Proof.Machine

/-! ## The invariants, half by half -/

/-- I1 to I3 (R19), of the generator's half; I7 follows from I2 and V5. -/
def GeneratorInv (p : Params) (g : Generator) : Prop :=
  g.cnt.toNat ≤ p.top ∧ (InRange p g.cmpShadow ∧ InRange p g.cmpActive) ∧ (g.run = false → g.cnt = 0)

/-- I4 to I6 (R19), of the controller's half. -/
def UnitInv (p : Params) (u : ControllerUnit) : Prop :=
  CtlInv p u.ctl ∧ (u.ind = true ↔ u.ctl.st = .active)

theorem inv_iff_halves {p : Params} (hp : p.Valid) (s : State) :
    Inv p s ↔ GeneratorInv p (generatorOf s) ∧ UnitInv p (unitOf s) ∧ PhaseInRange p s := by
  constructor
  · rintro ⟨hcnt, hcmp, hstop, hctl, hind, -, hpre⟩
    exact ⟨⟨hcnt, hcmp, hstop⟩, ⟨hctl, hind⟩, hpre⟩
  · rintro ⟨⟨hcnt, ⟨hshadow, hactive⟩, hstop⟩, ⟨hctl, hind⟩, hpre⟩
    have hend : PulseEnds p s := Nat.lt_succ_of_le (hactive.2.trans (Params.maxCounts_le_top hp))
    exact ⟨hcnt, ⟨hshadow, hactive⟩, hstop, hctl, hind, hend, hpre⟩

theorem generatorInv_frame {p : Params} {g : Generator} (h : GeneratorInv p g) : GeneratorInv p (generatorFrame g) := by
  obtain ⟨-, ⟨hshadow, -⟩, -⟩ := h
  exact ⟨Nat.zero_le _, ⟨hshadow, hshadow⟩, fun _ => rfl⟩

theorem generatorInv_tick {p : Params} (hp : p.Valid) {g : Generator} (h : GeneratorInv p g) :
    GeneratorInv p (generatorTick p g) := by
  unfold generatorTick
  split
  case isFalse => exact h
  case isTrue hrun =>
    split
    case isTrue => exact generatorInv_frame h
    case isFalse ht =>
      obtain ⟨hcnt, hcmp, -⟩ := h
      have hfit : (BitVec.ofNat 16 (g.cnt.toNat + 1)).toNat = g.cnt.toNat + 1 := by
        have := Params.top_lt hp
        exact Nat.mod_eq_of_lt (by omega)
      refine ⟨hfit.le.trans (by omega), hcmp, fun hstop => ?_⟩
      cases hrun.symm.trans hstop

theorem generatorInv_reset {p : Params} (hp : p.Valid) : GeneratorInv p (generatorReset p) :=
  ⟨Nat.zero_le _, ⟨Params.neutralCounts_inRange hp, Params.neutralCounts_inRange hp⟩, fun _ => rfl⟩

theorem generatorInv_apply {p : Params} (hp : p.Valid) (e : GeneratorEvent) {g : Generator} (h : GeneratorInv p g) :
    GeneratorInv p (applyGenerator p e g) := by
  cases e with
  | reset => exact generatorInv_reset hp
  | configure =>
    show GeneratorInv p (generatorConfigure g)
    unfold generatorConfigure
    split
    · exact h
    · obtain ⟨hcnt, hcmp, -⟩ := generatorInv_frame h
      exact ⟨hcnt, hcmp, nofun⟩
  | setpw us =>
    obtain ⟨hcnt, ⟨-, hactive⟩, hstop⟩ := h
    exact ⟨hcnt, ⟨Params.clampc_inRange hp _, hactive⟩, hstop⟩
  | tick => exact generatorInv_tick hp h

theorem ctlInv_ready (p : Params) : CtlInv p readyController := ⟨fun _ => ⟨rfl, rfl⟩, nofun⟩

/-- A hold at `t` milliseconds, `t` a multiple of the increment below the hold duration (I5). -/
theorem ctlInv_active {p : Params} {d : Sensor} {t : Elapsed} (hlt : t.toNat < p.holdMs) (hdvd : p.cycleMs ∣ t.toNat) :
    CtlInv p ⟨.active, d, t⟩ := ⟨nofun, fun _ => ⟨hlt, hdvd⟩⟩

theorem ctlInv_transition {p : Params} (hp : p.Valid) (v : SensorVector) {c : Controller} (h : CtlInv p c) :
    CtlInv p (transition p v c) := by
  obtain ⟨d, -, -, e⟩ | ⟨-, -, e⟩ | ⟨hst, hlt, e⟩ | ⟨-, -, e⟩ := transition_cases p v c <;> rw [e]
  · exact ctlInv_active (Params.one_le_holdMs hp) (Nat.dvd_zero _)
  · exact ctlInv_ready p
  · have hfit := elapsed_toNat_of_lt hp hlt
    obtain ⟨-, hdvd⟩ := h.2 hst
    exact ctlInv_active (hfit.trans_lt hlt) (hfit.symm ▸ hdvd.add (Nat.dvd_refl _))
  · exact ctlInv_ready p

theorem commandIndicator_iff (c : Controller) : commandIndicator c = true ↔ c.st = .active := by
  cases hst : c.st with
  | ready => simp [commandIndicator_of_ready hst]
  | active => simp [commandIndicator_of_active hst]

theorem unitInv_apply {p : Params} (hp : p.Valid) (e : ControllerEvent) {u : ControllerUnit} (h : UnitInv p u) :
    UnitInv p (applyUnit p e u) := by
  cases e with
  | reset => exact ⟨ctlInv_ready p, by simp [applyUnit, unitReset, readyController]⟩
  | cycle v => exact ⟨ctlInv_transition hp v h.1, commandIndicator_iff _⟩

/-! ## Events, edges and steps keep the invariants -/

theorem inv_setPre {p : Params} {n : Nat} (hn : n < p.prescaler) {s : State} (h : Inv p s) : Inv p (setPre n s) := by
  obtain ⟨hcnt, hcmp, hstop, hctl, hind, hend, -⟩ := h
  exact ⟨hcnt, hcmp, hstop, hctl, hind, hend, hn⟩

section Keeps

variable {p : Params} (hp : p.Valid)
include hp

theorem inv_applyEvent (i : Instr) {s : State} (h : Inv p s) : Inv p (applyEvent p i s) := by
  rw [inv_iff_halves hp] at h ⊢
  obtain ⟨hg, hu, hpre⟩ := h
  refine ⟨generatorOf_applyEvent p i s ▸ generatorInv_apply hp _ hg, ?_, (applyEvent_pre_inputs p i s).1.trans_lt hpre⟩
  obtain he | ⟨e, he⟩ := unitOf_applyEvent_cases p i s <;> rw [he]
  · exact hu
  · exact unitInv_apply hp e hu

theorem inv_runEvents (es : List Instr) {s : State} (h : Inv p s) : Inv p (runEvents p es s) := by
  induction es generalizing s with
  | nil => exact h
  | cons i es ih => exact ih (inv_applyEvent hp i h)

theorem inv_advancePhase {s : State} (h : Inv p s) : Inv p (advancePhase p s) := by
  obtain ⟨-, e⟩ | ⟨hlast, e⟩ := advancePhase_cases p s <;> rw [e]
  · exact inv_applyEvent hp .tick (inv_setPre (Params.one_le_prescaler hp) h)
  · obtain ⟨-, -, -, -, -, -, hpre⟩ := id h
    have : s.pre < p.prescaler := hpre
    exact inv_setPre (by omega) h

theorem inv_clockEdge (pins : Pins) {s : State} (h : Inv p s) : Inv p (clockEdge p pins s) := by
  have hzero := Params.one_le_prescaler hp
  have hstrobes : Inv p (strobes p pins s) := strobes_eq_runEvents p pins s ▸ inv_runEvents hp _ h
  obtain ⟨-, e⟩ | ⟨-, -, e⟩ | ⟨-, -, -, e⟩ | ⟨-, -, -, e⟩ := clockEdge_cases p pins s <;> rw [e]
  · exact inv_setPre hzero (inv_applyEvent hp .reset h)
  · exact inv_setPre hzero hstrobes
  · exact inv_advancePhase hp hstrobes
  · exact hstrobes

/-- RESET gives the invariants whatever the state before it, but for the phase, which it leaves alone (log 6). -/
theorem inv_resetEvent {s : State} (hpre : PhaseInRange p s) : Inv p (resetEvent p s) :=
  (inv_iff_halves hp _).mpr
    ⟨generatorInv_reset hp, ⟨ctlInv_ready p, by simp [unitOf, controllerOf, resetEvent]⟩, hpre⟩

end Keeps

theorem resetEvent_resetWith (p : Params) : resetEvent p (State.resetWith p) = State.resetWith p := rfl

/-- Settles O23: the reset state is the state after a RESET at phase 0. -/
theorem resetStateMeetsTheInvariants : Obligations.ResetStateMeetsTheInvariants := by
  intro p hp
  rw [← resetEvent_resetWith]
  exact inv_resetEvent hp (Params.one_le_prescaler hp)

/-- Settles O25: a step idles, applies an event or an edge, each of which keeps the invariants, or answers no state. -/
theorem everyValidMachineKeepsTheInvariants : Obligations.EveryValidMachineKeepsTheInvariants := by
  intro p s t hp hs hstep
  obtain ⟨-, e⟩ | ⟨w, rest, i, -, -, e⟩ | ⟨w, rest, why, -, -, e⟩ | ⟨pins, rest, -, e⟩ := stepWith_cases p s <;>
    cases e.symm.trans hstep
  · exact hs
  · exact inv_applyEvent hp i (s := setInputs rest s) hs
  · exact inv_clockEdge hp pins (s := setInputs rest s) hs

/-- Settles O24: the machine the spec fixes is the one of a valid set (O25). -/
theorem stepKeepsTheInvariants : Obligations.StepKeepsTheInvariants := by
  intro s t hs hstep
  rw [← stepWith_default] at hstep
  exact everyValidMachineKeepsTheInvariants _ s t Params.default_valid hs hstep

/-! ## The shadow register follows the controller -/

/-- The link reads the shadow register and the controller's half only. -/
theorem linked_congr {p : Params} {s t : State} (hshadow : t.cmpShadow = s.cmpShadow) (hu : unitOf t = unitOf s)
    (h : Linked p s) : Linked p t := by
  obtain ⟨hctl, -⟩ := unitOf_eq_iff.mp hu
  unfold Linked
  rw [hshadow, hctl]
  exact h

/-- A CYCLE links, whatever the state before it (R87). -/
theorem linked_cycleEvent {p : Params} (hp : p.Valid) (v : SensorVector) (s : State) : Linked p (cycleEvent p v s) :=
  Params.clampc_toNat hp _

theorem linked_resetEvent {p : Params} (hp : p.Valid) (s : State) : Linked p (resetEvent p s) :=
  (Params.neutralCounts_toNat hp).trans (Params.clampc_conv_neutralUs hp).symm

theorem linked_applyEvent {p : Params} (hp : p.Valid) {i : Instr} (hi : ∀ us, i ≠ .setpw us) {s : State} (h : Linked p s) :
    Linked p (applyEvent p i s) := by
  cases i with
  | reset => exact linked_resetEvent hp s
  | configure => exact linked_congr (configureEvent_cmpShadow s) (unitOf_configure s) h
  | setpw us => exact absurd rfl (hi us)
  | tick => exact linked_congr (tickEvent_cmpShadow p s) (unitOf_tick p s) h
  | cycle v => exact linked_cycleEvent hp v s

theorem linked_runEvents {p : Params} (hp : p.Valid) {es : List Instr} (hes : NoExternalWrite es) {s : State}
    (h : Linked p s) : Linked p (runEvents p es s) := by
  induction es generalizing s with
  | nil => exact h
  | cons i es ih =>
    have hi : ∀ us, i ≠ .setpw us := fun us e => hes us (e ▸ List.mem_cons_self)
    exact ih (fun us hus => hes us (List.mem_cons_of_mem _ hus)) (linked_applyEvent hp hi h)

theorem linked_strobes {p : Params} (hp : p.Valid) {pins : Pins} (hwe : pins.pwWe = false) {s : State} (h : Linked p s) :
    Linked p (strobes p pins s) := by
  rw [strobes_eq_runEvents]
  exact linked_runEvents hp (by intro us; cases pins.cfg <;> cases pins.cyc <;> simp [hwe]) h

theorem linked_advancePhase {p : Params} {s : State} (h : Linked p s) : Linked p (advancePhase p s) := by
  obtain ⟨-, e⟩ | ⟨-, e⟩ := advancePhase_cases p s <;> rw [e]
  · exact linked_congr (tickEvent_cmpShadow p _) (unitOf_tick p _) h
  · exact h

theorem linked_clockEdge {p : Params} (hp : p.Valid) {pins : Pins} (hwe : pins.pwWe = false) {s : State} (h : Linked p s) :
    Linked p (clockEdge p pins s) := by
  obtain ⟨-, e⟩ | ⟨-, -, e⟩ | ⟨-, -, -, e⟩ | ⟨-, -, -, e⟩ := clockEdge_cases p pins s <;> rw [e]
  · exact linked_resetEvent hp s
  · exact linked_strobes hp hwe h
  · exact linked_advancePhase (linked_strobes hp hwe h)
  · exact linked_strobes hp hwe h

/-- Settles O26: CYCLE and RESET link, CONFIGURE and TICK touch neither side of the link, and an edge is such events. -/
theorem shadowFollowsTheControllerAlone : Obligations.ShadowFollowsTheControllerAlone :=
  fun p hp => ⟨resetEvent_resetWith p ▸ linked_resetEvent hp _, fun _ _ hi h => linked_applyEvent hp hi h,
    fun _ _ hwe h => linked_clockEdge hp hwe h, fun _ _ hes h => linked_runEvents hp hes h⟩

end Sys2Proof.Machine
end

section
/-!
PROOFS. The control cycle and the hold (spec 41_motion_controller.md R84 to R93), and the views of the controller
(10_state.md R15, 30_encoding.md R46).
-/

namespace Sys2Proof.Machine

/-! ## One control cycle -/

/-- The whole state after a CYCLE, given the controller it goes to (R87, R88). -/
theorem cycleEvent_eq {p : Params} {v : SensorVector} {s : State} {c : Controller}
    (h : transition p v (controllerOf s) = c) :
    cycleEvent p v s = { s with
      st := c.st, sel := c.sel, elapsed := c.elapsed, ind := commandIndicator c
      cmpShadow := BitVec.ofNat 16 (p.clampc (p.conv (commandUs p c))) } := by
  subst h
  rfl

theorem default_neutral_counts :
    BitVec.ofNat 16 (Config.params.clampc (Config.params.conv Config.params.neutralUs)) = 3000#16 :=
  congrArg _ (default_counts_usOf .center)

theorem exec_cycle_of_ready {sens : SensorVector} {s : State} {d : Sensor} (hs : s.st = .ready) (hd : prio sens = some d) :
    exec (.cycle sens) s = .next { s with
      st := .active, sel := d, elapsed := 0#13, ind := true
      cmpShadow := BitVec.ofNat 16 (2 * usOf Config.params d) } := by
  have hc := (transition_of_ready Config.params sens (c := controllerOf s) hs).trans (fromReady_of_detection hd)
  rw [exec_eq_applyEvent, applyEvent, cycleEvent_eq hc, ← default_counts_usOf]
  rfl

theorem exec_cycle_to_ready {sens : SensorVector} {s : State}
    (hc : transition Config.params sens (controllerOf s) = readyController) :
    exec (.cycle sens) s = .next { s with
      st := .ready, sel := .left, elapsed := 0#13, ind := false, cmpShadow := 3000#16 } := by
  rw [exec_eq_applyEvent, applyEvent, cycleEvent_eq hc, ← default_neutral_counts]
  rfl

/-- Settles O5: the arbitrated sensor's hold begins, or READY is written in its one encoding. -/
theorem cycleFromReadyArbitrates : Obligations.CycleFromReadyArbitrates := by
  intro sens s hs
  refine ⟨fun hl => ?left, fun hl hc => ?center, fun hl hc hr => ?right, fun hz => ?none⟩
  case left => exact ⟨prio_left hl, exec_cycle_of_ready hs (prio_left hl)⟩
  case center => exact ⟨prio_center hl hc, exec_cycle_of_ready hs (prio_center hl hc)⟩
  case right => exact ⟨prio_right hl hc hr, exec_cycle_of_ready hs (prio_right hl hc hr)⟩
  case none =>
    have hn : prio sens = none := (prio_eq_none_iff sens).mpr ((eq_zero_iff_readSensor sens).mp hz)
    exact ⟨hn, exec_cycle_to_ready
      ((transition_of_ready Config.params sens (c := controllerOf s) hs).trans (fromReady_of_none hn))⟩

theorem exec_cycle_holding {sens : SensorVector} {s : State} (hs : s.st = .active) (hlt : s.elapsed.toNat + 50 < 5000) :
    exec (.cycle sens) s = .next { s with
      elapsed := BitVec.ofNat 13 (s.elapsed.toNat + 50), ind := true
      cmpShadow := BitVec.ofNat 16 (2 * usOf Config.params s.sel) } := by
  rw [exec_eq_applyEvent, applyEvent, cycleEvent_eq (transition_of_holding Config.params sens (c := controllerOf s) hs hlt),
    ← default_counts_usOf]
  obtain ⟨cnt, shadow, active, run, st, sel, elapsed, ind, pre, inputs⟩ := s
  obtain rfl : st = .active := hs
  rfl

/-- Settles O6: the timer advances by `CYCLE_MS` and the sensor's width is written again, or the hold ends. -/
theorem cycleAdvancesOrEndsTheHold : Obligations.CycleAdvancesOrEndsTheHold := by
  intro sens s hs
  refine ⟨fun hlt => ?_, fun hge => exec_cycle_to_ready
    (transition_of_expired Config.params sens (c := controllerOf s) hs (Nat.not_lt.mpr hge))⟩
  have hel : BitVec.ofNat 13 (s.elapsed.toNat + 50) = s.elapsed + 50#13 := by
    apply BitVec.eq_of_toNat_eq
    simp [BitVec.toNat_add]
  rw [exec_cycle_holding hs hlt, hel]
  cases s.sel <;> rfl

/-- Settles O38: in ACTIVE the transition does not consult the sensors. -/
theorem sensorsAreIgnoredDuringAHold : Obligations.SensorsAreIgnoredDuringAHold := by
  intro v v' s hs
  have htr : transition Config.params v (controllerOf s) = transition Config.params v' (controllerOf s) :=
    (transition_of_active _ v hs).trans (transition_of_active _ v' hs).symm
  rw [exec_eq_applyEvent, exec_eq_applyEvent, applyEvent, applyEvent, cycleEvent_eq htr, cycleEvent_eq rfl]

/-- The width and the indicator commanded do not depend on the hold timer (R86, R87). -/
theorem commandUs_congr (p : Params) {c c' : Controller} (hst : c.st = c'.st) (hsel : c.sel = c'.sel) :
    commandUs p c = commandUs p c' := by
  unfold commandUs
  rw [hst, hsel]

/-- Settles O43: a CYCLE writes both outputs from the controller alone; in a linked state that meets the invariants they are
there already. -/
theorem cycleSelfCorrectsItsOutputs : Obligations.CycleSelfCorrectsItsOutputs := by
  refine ⟨fun v s c b => rfl, fun v s t hinv hlink h hst hsel => ?_⟩
  obtain rfl := applyEvent_of_exec h
  have hinv' := inv_applyEvent Params.default_valid (.cycle v) hinv
  have hlink' : Linked Config.params (applyEvent Config.params (.cycle v) s) := linked_cycleEvent Params.default_valid v s
  obtain ⟨-, -, -, -, hind, -⟩ := hinv
  obtain ⟨-, -, -, -, hind', -⟩ := hinv'
  have hus : commandUs Config.params (controllerOf (applyEvent Config.params (.cycle v) s)) =
      commandUs Config.params (controllerOf s) := commandUs_congr _ hst hsel
  refine ⟨BitVec.eq_of_toNat_eq ?_, Bool.eq_iff_iff.mpr (hind'.trans (hst ▸ hind.symm))⟩
  rw [hlink, hlink', hus]

/-- Settles O30: off the frame boundary a TICK writes only the counter, which a CYCLE neither reads nor writes; on it, it
reads the shadow register, which a CYCLE writes. -/
theorem tickAndCycleCommuteInsideAFrame : Obligations.TickAndCycleCommuteInsideAFrame := by
  intro p v s
  cases hr : s.run with
  | false =>
    rw [tickEvent_stopped p hr, tickEvent_stopped p (s := cycleEvent p v s) hr]
    exact ⟨fun _ => rfl, rfl⟩
  | true =>
    by_cases ht : s.cnt.toNat = p.top
    · rw [tickEvent_atTop p hr ht, tickEvent_atTop p (s := cycleEvent p v s) hr ht]
      exact ⟨fun h => absurd ⟨rfl, ht⟩ h, rfl⟩
    · rw [tickEvent_inside p hr ht, tickEvent_inside p (s := cycleEvent p v s) hr ht]
      exact ⟨fun _ => rfl, rfl⟩

/-! ## The cycles of a run -/

/-- One event, RESET apart, is one control cycle of the controller or none. -/
theorem controllerOf_applyEvent (p : Params) {i : Instr} (hi : i ≠ .reset) (s : State) :
    controllerOf (applyEvent p i s) = runController p (sensesOf [i]) (controllerOf s) := by
  cases i with
  | reset => exact absurd rfl hi
  | configure => exact congrArg ControllerUnit.ctl (unitOf_configure s)
  | setpw us => rfl
  | tick => exact congrArg ControllerUnit.ctl (unitOf_tick p s)
  | cycle v => rfl

theorem runController_append (p : Params) (vs ws : List SensorVector) (c : Controller) :
    runController p (vs ++ ws) c = runController p ws (runController p vs c) := by
  induction vs generalizing c with
  | nil => rfl
  | cons v vs ih => exact ih _

theorem sensesOf_cons (i : Instr) (es : List Instr) : sensesOf (i :: es) = sensesOf [i] ++ sensesOf es := by
  cases i <;> rfl

theorem noReset_cons {i : Instr} {es : List Instr} : NoReset (i :: es) ↔ i ≠ .reset ∧ NoReset es := by
  simp [NoReset, eq_comm]

/-- Settles O29, by induction on the run: each event is a control cycle of the controller or leaves it alone. -/
theorem controllerSeesOnlyItsCycles : Obligations.ControllerSeesOnlyItsCycles := by
  intro p es
  induction es with
  | nil => exact fun s _ => rfl
  | cons i es ih =>
    intro s h
    obtain ⟨hi, hes⟩ := noReset_cons.mp h
    calc controllerOf (runEvents p (i :: es) s)
      _ = runController p (sensesOf es) (controllerOf (applyEvent p i s)) := ih _ hes
      _ = runController p (sensesOf [i] ++ sensesOf es) (controllerOf s) := by
          rw [controllerOf_applyEvent p hi, runController_append]
      _ = runController p (sensesOf (i :: es)) (controllerOf s) := by rw [← sensesOf_cons]

/-! ## The length of a hold -/

/-- A hold goes on while its cycles stay below the hold duration (R84, R91). -/
theorem runController_holding {p : Params} (hp : p.Valid) (vs : List SensorVector) {c : Controller} (hst : c.st = .active)
    (h : c.elapsed.toNat + vs.length * p.cycleMs < p.holdMs) :
    (runController p vs c).st = .active ∧ (runController p vs c).sel = c.sel ∧
      (runController p vs c).elapsed.toNat = c.elapsed.toNat + vs.length * p.cycleMs := by
  induction vs generalizing c with
  | nil => exact ⟨hst, rfl, by simp [runController]⟩
  | cons v vs ih =>
    rw [List.length_cons, Nat.succ_mul] at h ⊢
    have hlt : c.elapsed.toNat + p.cycleMs < p.holdMs := by omega
    have hel := elapsed_toNat_of_lt hp hlt
    have hc := transition_of_holding p v hst hlt
    obtain ⟨hst', hsel', hel'⟩ := ih (c := transition p v c) (by rw [hc]) (by rw [hc, hel]; omega)
    refine ⟨hst', hsel'.trans (by rw [hc]), hel'.trans ?_⟩
    rw [hc, hel]
    omega

/-- Settles O39: `ceil` of the time left counts the cycles that end below it, and the next one ends the hold. -/
theorem holdEndsAfterExactlyItsCycles : Obligations.HoldEndsAfterExactlyItsCycles := by
  intro p vs c hp hc hst
  obtain ⟨hlt, -⟩ := hc.2 hst
  have hcyc := Params.one_le_cycleMs hp
  refine ⟨fun h => runController_holding hp vs hst (by omega), fun hlen => ?_⟩
  have hcount (n : Nat) : n < vs.length ↔ n * p.cycleMs < p.holdMs - c.elapsed.toNat := hlen ▸ Params.ceilDiv_gt hcyc
  obtain rfl | ⟨ws, v, rfl⟩ := List.eq_nil_or_concat vs
  · exact absurd ((hcount 0).mpr (by omega)) (Nat.lt_irrefl 0)
  · rw [List.concat_eq_append, List.length_append, List.length_singleton] at hcount
    have hin : ws.length * p.cycleMs < p.holdMs - c.elapsed.toNat := (hcount ws.length).mp (Nat.lt_succ_self _)
    have hout : ¬ (ws.length + 1) * p.cycleMs < p.holdMs - c.elapsed.toNat := mt (hcount _).mpr (Nat.lt_irrefl _)
    obtain ⟨hst', -, hel'⟩ := runController_holding hp ws hst (by omega)
    rw [List.concat_eq_append, runController_append]
    refine transition_of_expired p v hst' ?_
    rw [hel']
    rw [Nat.succ_mul] at hout
    omega

/-- Settles O40: the detection starts a hold at 0, the run's 99 cycles end at 4950 (O29, O39), and the next one reaches 5000. -/
theorem detectionHoldsForOneHundredCycles : Obligations.DetectionHoldsForOneHundredCycles := by
  intro v w es s d hs hd hes hlen t
  have hstart : controllerOf (cycleEvent Config.params v s) = ⟨.active, d, 0⟩ :=
    (transition_of_ready _ v hs).trans (fromReady_of_detection hd)
  have hctl : controllerOf t = runController Config.params (sensesOf es) ⟨.active, d, 0⟩ :=
    hstart ▸ controllerSeesOnlyItsCycles Config.params es (cycleEvent Config.params v s) hes
  have h := runController_holding Params.default_valid (sensesOf es) (c := ⟨.active, d, 0⟩) rfl
    (hlen ▸ (by decide : 0 + 99 * 50 < 5000))
  rw [← hctl, hlen] at h
  obtain ⟨hst, hsel, hel⟩ := h
  have hel' : t.elapsed.toNat = 4950 := hel
  have hready : transition Config.params w (controllerOf t) = readyController :=
    transition_of_expired _ w hst (by show ¬ t.elapsed.toNat + 50 < 5000; omega)
  have hst' : (cycleEvent Config.params w t).st = .ready := congrArg Controller.st hready
  obtain ⟨hind, hshadow⟩ := cycleEvent_outputs_of_ready hst'
  exact ⟨⟨hst, hsel, hel'⟩, hst', hind, hshadow.trans default_neutral_counts⟩

/-! ## Other hold timers -/

theorem toDown_of_ready (p : Params) {c : Controller} (h : c.st = .ready) : toDown p c = timerReady := by
  simp [toDown, h]

theorem toDown_of_active (p : Params) {c : Controller} (h : c.st = .active) :
    toDown p c = ⟨.active, c.sel, remaining p c⟩ := by
  simp [toDown, h]

theorem toCount_of_ready (p : Params) {c : Controller} (h : c.st = .ready) : toCount p c = timerReady := by
  simp [toCount, h]

theorem toCount_of_active (p : Params) {c : Controller} (h : c.st = .active) :
    toCount p c = ⟨.active, c.sel, cycleCount p c⟩ := by
  simp [toCount, h]

theorem downTransition_detection (p : Params) {v : SensorVector} {d : Sensor} (h : prio v = some d) :
    downTransition p v timerReady = ⟨.active, d, p.holdMs⟩ := by
  simp [downTransition, timerReady, h]

theorem downTransition_none (p : Params) {v : SensorVector} (h : prio v = none) :
    downTransition p v timerReady = timerReady := by
  simp [downTransition, timerReady, h]

theorem countTransition_detection (p : Params) {v : SensorVector} {d : Sensor} (h : prio v = some d) :
    countTransition p v timerReady = ⟨.active, d, 0⟩ := by
  simp [countTransition, timerReady, h]

theorem countTransition_none (p : Params) {v : SensorVector} (h : prio v = none) :
    countTransition p v timerReady = timerReady := by
  simp [countTransition, timerReady, h]

theorem downTransition_active (p : Params) (v : SensorVector) (d : Sensor) (n : Nat) :
    downTransition p v ⟨.active, d, n⟩ = if n ≤ p.cycleMs then timerReady else ⟨.active, d, n - p.cycleMs⟩ := rfl

theorem countTransition_active (p : Params) (v : SensorVector) (d : Sensor) (n : Nat) :
    countTransition p v ⟨.active, d, n⟩ = if n + 1 < p.holdCycles then ⟨.active, d, n + 1⟩ else timerReady := rfl

/-- A cycle of the down-counting timer (R92): it takes away what the hold timer adds. -/
theorem toDown_transition {p : Params} (hp : p.Valid) (v : SensorVector) (c : Controller) :
    toDown p (transition p v c) = downTransition p v (toDown p c) := by
  obtain ⟨d, hst, hd, e⟩ | ⟨hst, hn, e⟩ | ⟨hst, hlt, e⟩ | ⟨hst, hge, e⟩ := transition_cases p v c <;> rw [e]
  · rw [toDown_of_ready p hst, downTransition_detection p hd]
    rfl
  · rw [toDown_of_ready p hst, downTransition_none p hn]
    rfl
  · have hgo : ¬ remaining p c ≤ p.cycleMs := by unfold remaining; omega
    have hrem : p.holdMs - (c.elapsed.toNat + p.cycleMs) = remaining p c - p.cycleMs := Nat.sub_add_eq ..
    rw [toDown_of_active p hst, downTransition_active, if_neg hgo, toDown_of_active p rfl, remaining,
      elapsed_toNat_of_lt hp hlt, hrem]
  · have hend : remaining p c ≤ p.cycleMs := by unfold remaining; omega
    rw [toDown_of_active p hst, downTransition_active, if_pos hend]
    rfl

theorem remaining_bounds {p : Params} {c : Controller} (h : CtlInv p c) (hst : c.st = .active) :
    1 ≤ remaining p c ∧ remaining p c ≤ p.holdMs := by
  obtain ⟨hlt, -⟩ := h.2 hst
  exact ⟨Nat.sub_pos_of_lt hlt, Nat.sub_le _ _⟩

/-- READY has one encoding (I4). -/
theorem eq_readyController {c : Controller} (h : ReadyCanonical c) (hst : c.st = .ready) : c = readyController := by
  obtain ⟨st, sel, el⟩ := c
  obtain ⟨hsel, hel⟩ := h hst
  simp_all [readyController]

/-- The time left determines the hold timer, and READY has one encoding. -/
theorem toDown_injective {p : Params} {c c' : Controller} (h : CtlInv p c) (h' : CtlInv p c')
    (heq : toDown p c = toDown p c') : c = c' := by
  cases hst : c.st with
  | ready =>
    cases hst' : c'.st with
    | ready => exact (eq_readyController h.1 hst).trans (eq_readyController h'.1 hst').symm
    | active => simp [toDown_of_ready p hst, toDown_of_active p hst', timerReady] at heq
  | active =>
    cases hst' : c'.st with
    | ready => simp [toDown_of_active p hst, toDown_of_ready p hst', timerReady] at heq
    | active =>
      rw [toDown_of_active p hst, toDown_of_active p hst'] at heq
      obtain ⟨-, hsel, hrem⟩ := TimerController.mk.inj heq
      obtain ⟨hlt, -⟩ := h.2 hst
      obtain ⟨hlt', -⟩ := h'.2 hst'
      have hel : c.elapsed = c'.elapsed := BitVec.eq_of_toNat_eq (by unfold remaining at hrem; omega)
      obtain ⟨st, sel, el⟩ := c
      obtain ⟨st', sel', el'⟩ := c'
      simp_all

/-- Settles O41: the commuting square, the bounds in ACTIVE, and injectivity. -/
theorem downCountingTimerIsTheSameMachine : Obligations.DownCountingTimerIsTheSameMachine :=
  fun _ hp => ⟨fun v c _ => toDown_transition hp v c, fun _ => remaining_bounds, fun _ _ => toDown_injective⟩

/-- In a hold the timer is its number of cycles (I5, R93). -/
theorem elapsed_eq_cycleCount_mul {p : Params} {c : Controller} (h : CtlInv p c) (hst : c.st = .active) :
    c.elapsed.toNat = cycleCount p c * p.cycleMs :=
  (Nat.div_mul_cancel (h.2 hst).2).symm

/-- A count of cycles is below `HOLD_CYCLES` exactly when its milliseconds are below the hold duration (R91, R93). -/
theorem lt_holdCycles_iff {p : Params} (hp : p.Valid) {n : Nat} : n < p.holdCycles ↔ n * p.cycleMs < p.holdMs :=
  Params.ceilDiv_gt (Params.one_le_cycleMs hp)

/-- A cycle of the counting timer (R93): the comparison of `n + 1` with `HOLD_CYCLES` is that of the milliseconds. -/
theorem toCount_transition {p : Params} (hp : p.Valid) (v : SensorVector) {c : Controller} (h : CtlInv p c) :
    toCount p (transition p v c) = countTransition p v (toCount p c) := by
  obtain ⟨d, hst, hd, e⟩ | ⟨hst, hn, e⟩ | ⟨hst, hlt, e⟩ | ⟨hst, hge, e⟩ := transition_cases p v c <;> rw [e]
  · rw [toCount_of_ready p hst, countTransition_detection p hd, toCount_of_active p rfl]
    simp [cycleCount]
  · rw [toCount_of_ready p hst, countTransition_none p hn]
    rfl
  · rw [elapsed_eq_cycleCount_mul h hst, ← Nat.succ_mul] at hlt
    have hcount : (c.elapsed.toNat + p.cycleMs) / p.cycleMs = cycleCount p c + 1 :=
      Nat.add_div_right _ (Params.one_le_cycleMs hp)
    rw [toCount_of_active p hst, countTransition_active, if_pos ((lt_holdCycles_iff hp).mpr hlt), toCount_of_active p rfl,
      ← hcount, cycleCount, elapsed_toNat_of_lt hp]
    rwa [elapsed_eq_cycleCount_mul h hst, ← Nat.succ_mul]
  · rw [elapsed_eq_cycleCount_mul h hst, ← Nat.succ_mul] at hge
    rw [toCount_of_active p hst, countTransition_active, if_neg (mt (lt_holdCycles_iff hp).mp hge)]
    rfl

/-- Settles O42: the commuting square, and the count as the quotient of the timer. -/
theorem cycleCountingTimerIsTheSameMachine : Obligations.CycleCountingTimerIsTheSameMachine := by
  refine fun p hp => ⟨fun v c hc => toCount_transition hp v hc, fun c hc hst => ?_⟩
  have hel := elapsed_eq_cycleCount_mul hc hst
  exact ⟨hel, (lt_holdCycles_iff hp).mpr (hel ▸ (hc.2 hst).1)⟩

/-! ## Encodings of the controller -/

theorem sensorOfCode_sensorCode (d : Sensor) : sensorOfCode (sensorCode d) = some d := by
  cases d <;> rfl

theorem packController_toNat (c : Controller) :
    (packController c).toNat = (ctlBit c.st).toNat * 32768 + (sensorCode c.sel).toNat * 8192 + c.elapsed.toNat := by
  have := (ctlBit c.st).isLt
  have := (sensorCode c.sel).isLt
  have := c.elapsed.isLt
  exact Nat.mod_eq_of_lt (by omega)

/-- The three fields of the tuple (R46). -/
theorem packController_fields (c : Controller) :
    (packController c).getLsbD 15 = decide (c.st = .active) ∧ (packController c).extractLsb' 13 2 = sensorCode c.sel ∧
      (packController c).extractLsb' 0 13 = c.elapsed := by
  have hpack := packController_toNat c
  have hsel := (sensorCode c.sel).isLt
  have hel := c.elapsed.isLt
  refine ⟨?_, BitVec.eq_of_toNat_eq ?_, BitVec.eq_of_toNat_eq ?_⟩
  · rw [← BitVec.testBit_toNat, Nat.testBit_eq_decide_div_mod_eq]
    cases hst : c.st <;> simp [hst, ctlBit] at hpack ⊢ <;> omega
  · rw [BitVec.extractLsb'_toNat, Nat.shiftRight_eq_div_pow]
    omega
  · rw [BitVec.extractLsb'_toNat, Nat.shiftRight_zero]
    omega

theorem unpackController_packController (c : Controller) : unpackController (packController c) = some c := by
  obtain ⟨hst, hsel, hel⟩ := packController_fields c
  simp only [unpackController, hst, hsel, hel, sensorOfCode_sensorCode]
  obtain ⟨st, sel, el⟩ := c
  cases st <;> rfl

/-- The inductive view forgets nothing of a controller with one READY (R15, I4). -/
theorem ofView_viewOf {c : Controller} (h : ReadyCanonical c) : ofView (viewOf c) = c := by
  obtain ⟨st, sel, el⟩ := c
  cases st with
  | ready => exact (eq_readyController h rfl).symm
  | active => simp [ofView, viewOf]

/-- Settles O45. -/
theorem controllerViewsLoseNothing : Obligations.ControllerViewsLoseNothing :=
  ⟨unpackController_packController, by decide, fun _ => ofView_viewOf⟩

end Sys2Proof.Machine
end

section
/-!
PROOFS. The generator's events, the outputs, and the frames of the waveform (spec 40_frame_generator.md R64 to R71;
42_system_and_boundary.md R100; 70_reset_and_hazards.md section 1).
-/

namespace Sys2Proof.Machine

/-! ## The outputs -/

theorem pwm_stopped (p : Params) {s : State} (h : s.run = false) : pwm p s = false := by
  simp [pwm, h]

/-- The pulse of a machine with the default polarity (R67). -/
theorem pwm_iff {p : Params} (hpol : p.polarityInverted = false) (s : State) :
    pwm p s = true ↔ s.run = true ∧ s.cnt.toNat < s.cmpActive.toNat := by
  simp [pwm, inPulseWindow, hpol]

/-- Settles O31. -/
theorem outputsAreTheFunctionsOfTheState : Obligations.OutputsAreTheFunctionsOfTheState :=
  fun s => ⟨pwm_iff rfl s, Iff.rfl, rfl⟩

/-- Settles O32: the polarity is the last term of `pwm` and of nothing else. -/
theorem polarityOnlyComplementsTheRunningOutput : Obligations.PolarityOnlyComplementsTheRunningOutput := by
  refine fun p s => ⟨fun hr => by simp [pwm, hr], fun hr b => pwm_stopped _ hr, fun b i => ?_⟩
  cases i <;> rfl

/-! ## Single events -/

theorem resetEvent_default (s : State) :
    resetEvent Config.params s = { s with
      cnt := 0#16, cmpShadow := 3000#16, cmpActive := 3000#16, run := false
      st := .ready, sel := .left, elapsed := 0#13, ind := false } := by
  rw [resetEvent, Params.default_neutralCounts]
  rfl

/-- Settles O1: RESET writes constants, so a second one writes the same. -/
theorem resetGivesTheResetState : Obligations.ResetGivesTheResetState := by
  intro s t
  have hexec (u : State) : exec .reset u = .next (resetEvent Config.params u) := exec_eq_applyEvent .reset u
  refine ⟨(hexec s).trans (congrArg _ (resetEvent_default s)), (hexec t).trans (congrArg _ (resetEvent_default t)), ?_⟩
  rw [outputs, pwm_stopped Config.params (s := t) rfl]
  rfl

/-- Settles O2: the two ways of CONFIGURE. -/
theorem configureStartsTheTimerOnce : Obligations.ConfigureStartsTheTimerOnce := by
  intro s
  have hexec : exec .configure s = .next (configureEvent s) := exec_eq_applyEvent .configure s
  refine ⟨fun hr => hexec.trans (congrArg _ (configureEvent_running hr)), fun hr => ⟨?_, fun hpos => ?_⟩⟩
  · exact hexec.trans (congrArg _ (configureEvent_stopped hr))
  · exact (pwm_iff rfl _).mpr ⟨rfl, hpos⟩

/-- Settles O4: the three ways of TICK; the count wraps as the sum of two words does. -/
theorem tickCountsOrStartsAFrame : Obligations.TickCountsOrStartsAFrame := by
  intro s
  have hexec : exec .tick s = .next (tickEvent Config.params s) := exec_eq_applyEvent .tick s
  have htop := Params.default_top
  refine ⟨fun hr => ?stopped, fun hr ht => ?top, fun hr ht => ?inside⟩
  case stopped => exact hexec.trans (congrArg _ (tickEvent_stopped _ hr))
  case top => exact hexec.trans (congrArg _ (tickEvent_atTop _ hr (ht.trans htop.symm)))
  case inside =>
    have hcount : BitVec.ofNat 16 (s.cnt.toNat + 1) = s.cnt + 1#16 := by
      apply BitVec.eq_of_toNat_eq
      simp [BitVec.toNat_add]
    rw [hexec, tickEvent_inside _ hr (htop ▸ ht), advanceCount, hcount]

/-- Settles O36: the second write stores the same counts. -/
theorem repeatedSetpwChangesNothing : Obligations.RepeatedSetpwChangesNothing := by
  intro us s t h
  obtain rfl := applyEvent_of_exec h
  exact exec_eq_applyEvent _ _

/-- A stopped timer at count 0 stays so at every event but CONFIGURE (R64, D11). -/
theorem applyEvent_keeps_stopped (p : Params) {i : Instr} (hi : i ≠ .configure) {s : State}
    (h : s.cnt = 0 ∧ s.run = false) : (applyEvent p i s).cnt = 0 ∧ (applyEvent p i s).run = false := by
  obtain ⟨hcnt, hrun⟩ := h
  cases i with
  | reset => exact ⟨rfl, rfl⟩
  | configure => exact absurd rfl hi
  | setpw us => exact ⟨hcnt, hrun⟩
  | tick =>
    rw [applyEvent, tickEvent_stopped p hrun]
    exact ⟨hcnt, hrun⟩
  | cycle v => exact ⟨hcnt, hrun⟩

theorem runEvents_keeps_stopped (p : Params) {es : List Instr} (hes : .configure ∉ es) {s : State}
    (h : s.cnt = 0 ∧ s.run = false) : (runEvents p es s).cnt = 0 ∧ (runEvents p es s).run = false := by
  induction es generalizing s with
  | nil => exact h
  | cons i es ih =>
    obtain ⟨hi, hes⟩ := List.ne_and_not_mem_of_not_mem_cons hes
    exact ih hes (applyEvent_keeps_stopped p hi.symm h)

/-- Settles O37: until CONFIGURE the timer is stopped at count 0. -/
theorem noPulseBeforeConfigure : Obligations.NoPulseBeforeConfigure := by
  intro p es hes
  obtain ⟨hcnt, hrun⟩ := runEvents_keeps_stopped p hes (s := State.resetWith p) ⟨rfl, rfl⟩
  exact ⟨hcnt, hrun, pwm_stopped p hrun⟩

/-! ## What is counted along a run -/

theorem countTicks_cons (i : Instr) (es : List Instr) : countTicks (i :: es) = countTicks [i] + countTicks es := by
  cases i <;> simp [countTicks, Nat.add_comm]

theorem countTicks_append (es fs : List Instr) : countTicks (es ++ fs) = countTicks es + countTicks fs := by
  induction es with
  | nil => simp [countTicks]
  | cons i es ih => rw [List.cons_append, countTicks_cons, countTicks_cons i es, ih, Nat.add_assoc]

theorem countTicks_of_ne_tick {i : Instr} (hi : i ≠ .tick) : countTicks [i] = 0 := by
  cases i with
  | tick => exact absurd rfl hi
  | _ => rfl

theorem highTicks_cons (p : Params) (i : Instr) (es : List Instr) (s : State) :
    highTicks p (i :: es) s = highTicks p [i] s + highTicks p es (applyEvent p i s) := by
  cases i <;> simp [highTicks]

theorem highTicks_append (p : Params) (es fs : List Instr) (s : State) :
    highTicks p (es ++ fs) s = highTicks p es s + highTicks p fs (runEvents p es s) := by
  induction es generalizing s with
  | nil => simp [highTicks, runEvents]
  | cons i es ih => rw [List.cons_append, highTicks_cons, ih, highTicks_cons p i es, Nat.add_assoc, runEvents]

theorem highTicks_of_ne_tick (p : Params) {i : Instr} (hi : i ≠ .tick) (s : State) : highTicks p [i] s = 0 := by
  cases i with
  | tick => exact absurd rfl hi
  | _ => rfl

theorem risingEdges_append (p : Params) (es fs : List Instr) (s : State) :
    risingEdges p (es ++ fs) s = risingEdges p es s + risingEdges p fs (runEvents p es s) := by
  induction es generalizing s with
  | nil => simp [risingEdges, runEvents]
  | cons i es ih => rw [List.cons_append, risingEdges, ih, risingEdges, Nat.add_assoc, runEvents]

/-- Rises and falls of a level alternate: their difference is the change of the level from start to end. -/
theorem fallingEdges_add_pwm (p : Params) (es : List Instr) (s : State) :
    fallingEdges p es s + (pwm p (runEvents p es s)).toNat = risingEdges p es s + (pwm p s).toNat := by
  induction es generalizing s with
  | nil => simp [fallingEdges, risingEdges, runEvents]
  | cons i es ih =>
    have htail := ih (applyEvent p i s)
    simp only [fallingEdges, risingEdges, runEvents]
    cases hs : pwm p s <;> cases hs' : pwm p (applyEvent p i s) <;> simp [hs'] at htail ⊢ <;> omega

/-! ## Inside a frame -/

/-- Inside a frame an event but RESET moves the counter by its ticks and leaves the frame its width and the timer running. -/
theorem applyEvent_insideFrame {p : Params} (hp : p.Valid) {i : Instr} (hi : i ≠ .reset) {s : State} (hr : s.run = true)
    (h : s.cnt.toNat + countTicks [i] ≤ p.top) :
    (applyEvent p i s).cnt.toNat = s.cnt.toNat + countTicks [i] ∧ (applyEvent p i s).cmpActive = s.cmpActive ∧
      (applyEvent p i s).run = true := by
  by_cases ht : i = .tick
  · subst ht
    have hlt : s.cnt.toNat < p.top := h
    have e : applyEvent p .tick s = advanceCount s := tickEvent_inside p hr hlt.ne
    rw [e]
    exact ⟨advanceCount_cnt_toNat hp hlt, rfl, hr⟩
  · obtain ⟨hcnt, hactive, hrun⟩ := applyEvent_keeps_frame p hr hi ht
    exact ⟨by rw [hcnt, countTicks_of_ne_tick ht, Nat.add_zero], hactive, hrun⟩

/-- A run without RESET that stays inside the frame, likewise (R68). -/
theorem runEvents_insideFrame {p : Params} (hp : p.Valid) {es : List Instr} (hes : NoReset es) {s : State}
    (hr : s.run = true) (h : s.cnt.toNat + countTicks es ≤ p.top) :
    (runEvents p es s).cnt.toNat = s.cnt.toNat + countTicks es ∧ (runEvents p es s).cmpActive = s.cmpActive ∧
      (runEvents p es s).run = true := by
  induction es generalizing s with
  | nil => exact ⟨rfl, rfl, hr⟩
  | cons i es ih =>
    obtain ⟨hi, hes⟩ := noReset_cons.mp hes
    rw [countTicks_cons] at h ⊢
    obtain ⟨hcnt, hactive, hrun⟩ := applyEvent_insideFrame hp hi hr (by omega)
    obtain ⟨hcnt', hactive', hrun'⟩ := ih hes hrun (by omega)
    exact ⟨hcnt'.trans (by omega), hactive'.trans hactive, hrun'⟩

/-- Inside a frame one event finds `pwm = 1` at a tick below the width. -/
theorem highTicks_one_insideFrame {p : Params} (hpol : p.polarityInverted = false) (i : Instr) {s : State}
    (hr : s.run = true) :
    highTicks p [i] s + min s.cnt.toNat s.cmpActive.toNat = min (s.cnt.toNat + countTicks [i]) s.cmpActive.toNat := by
  by_cases ht : i = .tick
  · subst ht
    have hpwm := pwm_iff hpol s
    cases h : pwm p s <;> simp [h, hr, highTicks, countTicks] at hpwm ⊢ <;> omega
  · rw [highTicks_of_ne_tick p ht, countTicks_of_ne_tick ht]
    omega

/-- Inside a frame the high ticks of a run are those at counts below the width (R68). -/
theorem highTicks_insideFrame {p : Params} (hp : p.Valid) (hpol : p.polarityInverted = false) {es : List Instr}
    (hes : NoReset es) {s : State} (hr : s.run = true) (h : s.cnt.toNat + countTicks es ≤ p.top) :
    highTicks p es s + min s.cnt.toNat s.cmpActive.toNat = min (s.cnt.toNat + countTicks es) s.cmpActive.toNat := by
  induction es generalizing s with
  | nil => exact Nat.zero_add _
  | cons i es ih =>
    obtain ⟨hi, hes⟩ := noReset_cons.mp hes
    rw [countTicks_cons] at h ⊢
    obtain ⟨hcnt, hactive, hrun⟩ := applyEvent_insideFrame hp hi hr (by omega)
    have hone := highTicks_one_insideFrame hpol i hr
    have htail := ih hes hrun (by omega)
    rw [hcnt, hactive] at htail
    rw [highTicks_cons, ← Nat.add_assoc]
    omega

/-- Inside a frame `pwm` never rises (R68). -/
theorem risingEdges_insideFrame {p : Params} (hp : p.Valid) (hpol : p.polarityInverted = false) {es : List Instr}
    (hes : NoReset es) {s : State} (hr : s.run = true) (h : s.cnt.toNat + countTicks es ≤ p.top) :
    risingEdges p es s = 0 := by
  induction es generalizing s with
  | nil => rfl
  | cons i es ih =>
    obtain ⟨hi, hes⟩ := noReset_cons.mp hes
    rw [countTicks_cons] at h
    obtain ⟨hcnt, hactive, hrun⟩ := applyEvent_insideFrame hp hi hr (by omega)
    have hfall : pwm p (applyEvent p i s) = true → pwm p s = true := by
      rw [pwm_iff hpol, pwm_iff hpol, hcnt, hactive]
      exact fun ⟨_, hlt⟩ => ⟨hr, by omega⟩
    rw [risingEdges, ih hes hrun (by omega)]
    cases hs : pwm p s <;> simp [hs] at hfall ⊢
    exact hfall

/-- Settles O33: the frame's run from count 0. -/
theorem frameInProgressIsNeverDisturbed : Obligations.FrameInProgressIsNeverDisturbed := by
  intro p es s hp hpol _ hr hcnt hes hticks
  have hzero : s.cnt.toNat = 0 := by simp [hcnt]
  have hin : s.cnt.toNat + countTicks es ≤ p.top := by omega
  obtain ⟨hcnt', hactive, hrun⟩ := runEvents_insideFrame hp hes hr hin
  have hhigh := highTicks_insideFrame hp hpol hes hr hin
  simp only [hzero, Nat.zero_add, Nat.zero_min, Nat.add_zero] at hcnt' hhigh
  exact ⟨hcnt', hrun, hactive, hhigh⟩

/-! ## At the frame boundary -/

/-- What the tick after the last count of a frame gives (R66). -/
theorem tick_after_frame {p : Params} (hp : p.Valid) {es : List Instr} (hes : NoReset es) {s : State} (hr : s.run = true)
    (h : s.cnt.toNat + countTicks es = p.top) :
    runEvents p (es ++ [.tick]) s = startFrame (runEvents p es s) := by
  obtain ⟨hcnt, -, hrun⟩ := runEvents_insideFrame hp hes hr h.le
  rw [runEvents_append]
  exact tickEvent_atTop p hrun (hcnt.trans h)

/-- A pulse in range is on at the start of its frame (V6) and off at its last count (V5). -/
theorem pwm_frameStart {p : Params} (hp : p.Valid) (hpol : p.polarityInverted = false) {s : State} (hr : s.run = true)
    (hcnt : s.cnt = 0) (ha : InRange p s.cmpActive) : pwm p s = true := by
  have hmin := Params.one_le_minCounts hp
  obtain ⟨hlow, -⟩ := ha
  refine (pwm_iff hpol s).mpr ⟨hr, ?_⟩
  rw [hcnt]
  exact hmin.trans hlow

theorem pwm_frameEnd {p : Params} (hp : p.Valid) (hpol : p.polarityInverted = false) {s : State}
    (hcnt : s.cnt.toNat = p.top) (ha : InRange p s.cmpActive) : pwm p s = false := by
  have htop := Params.maxCounts_le_top hp
  obtain ⟨-, hhigh⟩ := ha
  rw [Bool.eq_false_iff, Ne, pwm_iff hpol]
  exact fun ⟨_, hlt⟩ => by omega

/-- Settles O34: the frame's run never raises `pwm` and ends with it low; the boundary tick raises it, so of both edges
there is one (`fallingEdges_add_pwm`). -/
theorem everyFrameIsOneWholePulse : Obligations.EveryFrameIsOneWholePulse := by
  intro p es s hp hpol hinv hr hcnt hes hticks t
  have hzero : s.cnt.toNat = 0 := by simp [hcnt]
  have hend : s.cnt.toNat + countTicks es = p.top := by omega
  have ht : t = startFrame (runEvents p es s) := tick_after_frame hp hes hr hend
  obtain ⟨hcnt', hactive', hrun'⟩ := runEvents_insideFrame hp hes hr hend.le
  obtain ⟨-, ⟨-, hrange⟩, -⟩ := id hinv
  obtain ⟨-, ⟨hshadow', -⟩, -⟩ := inv_runEvents hp es hinv
  have hpwm : pwm p s = true := pwm_frameStart hp hpol hr hcnt hrange
  have hpwm' : pwm p (runEvents p es s) = false := pwm_frameEnd hp hpol (hcnt'.trans hend) (hactive' ▸ hrange)
  have hpwmt : pwm p t = true := ht ▸ pwm_frameStart hp hpol hrun' rfl hshadow'
  have hrise : risingEdges p (es ++ [.tick]) s = 1 := by
    have htick : applyEvent p .tick (runEvents p es s) = t := (runEvents_append p es [.tick] s).symm
    rw [risingEdges_append, risingEdges_insideFrame hp hpol hes hr hend.le]
    simp [risingEdges, hpwm', htick, hpwmt]
  have hfall : fallingEdges p (es ++ [.tick]) s = 1 := by
    have hbalance := fallingEdges_add_pwm p (es ++ [.tick]) s
    rw [hrise, hpwm, show pwm p (runEvents p (es ++ [.tick]) s) = true from hpwmt] at hbalance
    exact Nat.add_right_cancel hbalance
  have hhigh : highTicks p (es ++ [.tick]) s = s.cmpActive.toNat := by
    have hin := highTicks_insideFrame hp hpol hes hr hend.le
    have hle := hrange.2.trans (Params.maxCounts_le_top hp)
    rw [highTicks_append]
    simp only [highTicks, hpwm', Bool.false_eq_true, if_false]
    omega
  exact ⟨by rw [ht]; rfl, by rw [ht]; exact hrun', by rw [ht]; rfl, by rw [ht]; rfl, hpwmt, hhigh, hfall, hrise⟩

/-- TICK and CONFIGURE leave the shadow register alone (R20). -/
theorem runEvents_keeps_shadow (p : Params) {es : List Instr} (hes : NoCommand es) (s : State) :
    (runEvents p es s).cmpShadow = s.cmpShadow := by
  induction es generalizing s with
  | nil => rfl
  | cons i es ih =>
    obtain ⟨hi, hes⟩ := List.forall_mem_cons.mp hes
    refine (ih hes _).trans ?_
    obtain rfl | rfl := hi
    · exact tickEvent_cmpShadow p s
    · exact configureEvent_cmpShadow s

theorem noReset_of_noCommand {es : List Instr} (h : NoCommand es) : NoReset es := by
  intro hmem
  cases h _ hmem <;> contradiction

/-- Settles O35: the whole stretch lies inside the frame, and from the write to the boundary nothing writes the shadow. -/
theorem lastWriteShapesTheNextFrame : Obligations.LastWriteShapesTheNextFrame := by
  intro p us es ls s hp _ hr hes hls hticks
  have hnoReset : NoReset (es ++ .setpw us :: ls) := by
    have := noReset_of_noCommand hls
    simp_all [NoReset]
  have hend : s.cnt.toNat + countTicks (es ++ .setpw us :: ls) = p.top := by
    rw [countTicks_append, countTicks, ← Nat.add_assoc]
    · exact hticks
    · exact nofun
  obtain ⟨-, hactive, -⟩ := runEvents_insideFrame hp hnoReset hr hend.le
  have hshadow : (runEvents p (es ++ .setpw us :: ls) s).cmpShadow = BitVec.ofNat 16 (p.clampc (p.conv us.toNat)) := by
    rw [runEvents_append]
    exact runEvents_keeps_shadow p hls _
  rw [tick_after_frame hp hnoReset hr hend, startFrame_cmpActive, hshadow]
  exact ⟨hactive, rfl, Params.clampc_toNat hp _⟩

end Sys2Proof.Machine
end

section
/-!
PROOFS. The port-level binding and the length of a frame (spec 30_encoding.md R55 to R58; 60_exceptions.md section 1).
-/

namespace Sys2Proof.Machine

/-! ## One edge -/

/-- The events of an edge without `rst` are the strobed ones, then the TICK it has, if any. -/
theorem runEvents_edgeEvents (p : Params) {pins : Pins} (hr : pins.rst = false) (s : State) :
    runEvents p (edgeEvents p pins s) s = runEvents p (edgeTick p pins s) (strobes p pins s) := by
  rw [edgeEvents, hr, if_neg Bool.false_ne_true, runEvents_append, strobes_eq_runEvents]

theorem edgeTick_none (p : Params) {pins : Pins} {s : State}
    (h : startsTimer pins s = true ∨ s.run = false ∨ s.pre ≠ p.prescaler - 1) : edgeTick p pins s = [] := by
  obtain h | h | h := h <;> simp [edgeTick, h]

theorem edgeTick_tick (p : Params) {pins : Pins} {s : State} (hs : startsTimer pins s = false) (hr : s.run = true)
    (hp : s.pre = p.prescaler - 1) : edgeTick p pins s = [.tick] := by
  simp [edgeTick, hs, hr, hp]

theorem startsTimer_iff (pins : Pins) (s : State) : startsTimer pins s = true ↔ pins.cfg = true ∧ s.run = false := by
  simp [startsTimer]

/-- At an edge that does not start the timer, the strobes leave it as it was. -/
theorem strobes_run_of_not_starts (p : Params) {pins : Pins} {s : State} (h : startsTimer pins s = false) :
    (strobes p pins s).run = s.run := by
  rw [strobes_run]
  cases hr : s.run <;> simp_all [startsTimer]

theorem setPre_setPre (m n : Nat) (s : State) : setPre m (setPre n s) = setPre m s := rfl

theorem setPre_self (s : State) : setPre s.pre s = s := rfl

/-- The effect of an edge as its event sequence, and the phase it leaves (R57). -/
theorem clockEdge_eq (p : Params) (pins : Pins) (s : State) :
    ∃ n, clockEdge p pins s = setPre n (runEvents p (edgeEvents p pins s) s) ∧
      n = (if pins.rst = true then 0
        else if pins.cfg = true ∧ s.run = false then 0
        else if s.run = false then s.pre
        else if s.pre = p.prescaler - 1 then 0
        else s.pre + 1) := by
  obtain ⟨hpre, -⟩ := strobes_pre_inputs p pins s
  obtain ⟨hr, e⟩ | ⟨hr, hs, e⟩ | ⟨hr, hs, hrun, e⟩ | ⟨hr, hs, hrun, e⟩ := clockEdge_cases p pins s <;> rw [e]
  · exact ⟨0, by simp [edgeEvents, hr, runEvents, applyEvent], by simp [hr]⟩
  · rw [runEvents_edgeEvents p hr, edgeTick_none p (.inl hs)]
    exact ⟨0, rfl, by simp [(startsTimer_iff pins s).mp hs]⟩
  · rw [strobes_run_of_not_starts p hs] at hrun
    rw [runEvents_edgeEvents p hr]
    obtain ⟨hlast, e'⟩ | ⟨hlast, e'⟩ := advancePhase_cases p (strobes p pins s) <;> rw [e'] <;> rw [hpre] at hlast
    · rw [edgeTick_tick p hs hrun hlast]
      exact ⟨0, applyEvent_setPre p .tick 0 _, by simp [hr, hrun, hlast]⟩
    · rw [edgeTick_none p (.inr (.inr hlast)), hpre]
      exact ⟨_, rfl, by simp [hr, hrun, hlast]⟩
  · rw [strobes_run_of_not_starts p hs] at hrun
    have hcfg : pins.cfg = false := by simpa [startsTimer, hrun] using hs
    rw [runEvents_edgeEvents p hr, edgeTick_none p (.inr (.inl hrun))]
    exact ⟨s.pre, hpre ▸ (setPre_self _).symm, by simp [hr, hrun, hcfg]⟩

/-- Settles O46 by the four ways of an edge. -/
theorem clockEdgeIsItsEventSequence : Obligations.ClockEdgeIsItsEventSequence := by
  intro p pins s
  obtain ⟨n, e, hn⟩ := clockEdge_eq p pins s
  rw [e]
  exact ⟨rfl, hn⟩

/-- Settles O47: with `rst` on, the edge is RESET and clears the phase. -/
theorem resetPinOverridesEveryStrobe : Obligations.ResetPinOverridesEveryStrobe := by
  intro pins s hr
  have e : clockEdge Config.params pins s = setPre 0 (resetEvent Config.params s) := if_pos hr
  exact e

/-! ## Quiet edges -/

/-- Fewer quiet edges than `PRESCALER` move the phase only. -/
theorem runEdges_quiet_lt (p : Params) {s : State} (hr : s.run = true) (hpre : s.pre = 0) {k : Nat} (hk : k < p.prescaler) :
    runEdges p (List.replicate k quietPins) s = setPre k s := by
  induction k with
  | zero => exact (hpre ▸ setPre_self s).symm
  | succ k ih =>
    rw [List.replicate_succ', runEdges_append, ih (by omega)]
    show clockEdge p quietPins (setPre k s) = _
    rw [clockEdge_quiet p (s := setPre k s) hr, advancePhase_before p (by simp only [setPre_pre]; omega)]
    rfl

/-- `PRESCALER` quiet edges are one TICK. -/
theorem runEdges_quiet_prescaler {p : Params} (hp : p.Valid) {s : State} (hr : s.run = true) (hpre : s.pre = 0) :
    runEdges p (List.replicate p.prescaler quietPins) s = tickEvent p s := by
  have hpos := Params.one_le_prescaler hp
  obtain ⟨k, hk⟩ : ∃ k, p.prescaler = k + 1 := ⟨p.prescaler - 1, by omega⟩
  calc runEdges p (List.replicate p.prescaler quietPins) s
    _ = clockEdge p quietPins (setPre k s) := by
        rw [hk, List.replicate_succ', runEdges_append, runEdges_quiet_lt p hr hpre (by omega)]
        rfl
    _ = tickEvent p (setPre 0 (setPre k s)) := by
        rw [clockEdge_quiet p (s := setPre k s) hr, advancePhase_atLast p (by simp only [setPre_pre]; omega)]
    _ = tickEvent p s := by rw [setPre_setPre, ← hpre, setPre_self]

theorem configureEvent_run (s : State) : (configureEvent s).run = true := by
  obtain ⟨h, e⟩ | ⟨-, e⟩ := configureEvent_cases s <;> rw [e]
  · exact h
  · rfl

/-- The edge that starts the timer gives no TICK and clears the phase (R57). -/
theorem clockEdge_configure (p : Params) {s : State} (hr : s.run = false) :
    clockEdge p { quietPins with cfg := true } s = setPre 0 (configureEvent s) := by
  simp [clockEdge, startsTimer, quietPins, strobes, cycleIf, setpwIf, configureIf, hr]

/-- Settles O48. -/
theorem oneTickEveryPrescalerEdges : Obligations.OneTickEveryPrescalerEdges := by
  intro p s hp
  refine ⟨fun hr hpre => ⟨fun k hk => runEdges_quiet_lt p hr hpre hk, runEdges_quiet_prescaler hp hr hpre⟩, fun hr => ?_⟩
  rw [runEdges, clockEdge_configure p hr]
  exact runEdges_quiet_prescaler hp (s := setPre 0 (configureEvent s)) (configureEvent_run s) rfl

/-- `n × PRESCALER` quiet edges are `n` ticks. -/
theorem runEdges_quiet_mul {p : Params} (hp : p.Valid) (n : Nat) {s : State} (hr : s.run = true) (hpre : s.pre = 0) :
    runEdges p (List.replicate (n * p.prescaler) quietPins) s = runEvents p (List.replicate n .tick) s := by
  induction n generalizing s with
  | zero => rw [Nat.zero_mul]; rfl
  | succ n ih =>
    rw [Nat.succ_mul, Nat.add_comm, ← List.replicate_append_replicate, runEdges_append, runEdges_quiet_prescaler hp hr hpre]
    exact ih ((tickEvent_run p s).trans hr) ((applyEvent_pre_inputs p .tick s).1.trans hpre)

/-! ## One frame of ticks -/

/-- Ticks inside a frame count, and do nothing else. -/
theorem runEvents_ticks_insideFrame {p : Params} (hp : p.Valid) {s : State} (hr : s.run = true) (hcnt : s.cnt = 0) {k : Nat}
    (hk : k ≤ p.top) : runEvents p (List.replicate k .tick) s = { s with cnt := BitVec.ofNat 16 k } := by
  induction k with
  | zero => exact congrArg (fun c => { s with cnt := c }) hcnt
  | succ k ih =>
    have hfit : (BitVec.ofNat 16 k).toNat = k := Nat.mod_eq_of_lt (by have := Params.top_lt hp; omega)
    rw [List.replicate_succ', runEvents_append, ih (by omega)]
    refine (tickEvent_inside p (s := { s with cnt := BitVec.ofNat 16 k }) hr (hfit.trans_ne (by omega))).trans ?_
    rw [advanceCount, hfit]

/-- Settles O51: `TOP` ticks count up to `TOP`, and the next one starts a frame. -/
theorem framePseudoEventIsOneFrame : Obligations.FramePseudoEventIsOneFrame := by
  intro p s hp hr hcnt
  show runEvents p (List.replicate (p.top + 1) .tick) s = _
  rw [List.replicate_succ', runEvents_append, runEvents_ticks_insideFrame hp hr hcnt le_rfl]
  refine (tickEvent_atTop p (s := { s with cnt := BitVec.ofNat 16 p.top }) hr (Nat.mod_eq_of_lt (Params.top_lt hp))).trans ?_
  exact congrArg (fun c => { s with cnt := c, cmpActive := s.cmpShadow }) hcnt.symm

/-- Settles O49: the edges of a frame are its ticks (`runEdges_quiet_mul`), which are the pseudo-event FRAME (O51). -/
theorem frameLastsItsClocks : Obligations.FrameLastsItsClocks := by
  refine ⟨fun p s hp hr hpre hcnt => ?_, by decide⟩
  exact (runEdges_quiet_mul hp p.frameTicks hr hpre).trans (framePseudoEventIsOneFrame p s hp hr hcnt)

end Sys2Proof.Machine
end

section
/-!
PROOFS. The text form of events (spec 30_encoding.md R54; log 13).
-/

namespace Sys2Proof.Machine

/-! ## Words of a line -/

/-- A character that stands inside a word of a line: no blank, and no start of a comment. -/
def WordChar (c : Char) : Prop := c ≠ ' ' ∧ c ≠ '\t' ∧ c ≠ ';'

/-- A line without `;` has no comment. -/
theorem dropComment_eq_self {cs : List Char} (h : ∀ c ∈ cs, c ≠ ';') : dropComment cs = cs := by
  induction cs with
  | nil => rfl
  | cons c cs ih =>
    obtain ⟨hc, hcs⟩ := List.forall_mem_cons.mp h
    rw [dropComment, if_neg hc, ih hcs]

/-- The characters of a word join the word being read. -/
theorem wordsFrom_word {w : List Char} (h : ∀ c ∈ w, WordChar c) (rest cur : List Char) :
    wordsFrom (w ++ rest) cur = wordsFrom rest (cur ++ w) := by
  induction w generalizing cur with
  | nil => simp
  | cons c w ih =>
    obtain ⟨⟨hspace, htab, -⟩, hw⟩ := List.forall_mem_cons.mp h
    rw [List.cons_append, wordsFrom, if_neg (not_or.mpr ⟨hspace, htab⟩), ih hw, List.append_assoc]
    rfl

/-- A line of two words, one blank between them. -/
theorem parseLine_pair {w o : List Char} (hw : ∀ c ∈ w, WordChar c) (ho : ∀ c ∈ o, WordChar c) (hw0 : w ≠ [])
    (ho0 : o ≠ []) :
    parseLine (w ++ ' ' :: o) = lineOfPair w o := by
  have hcomment : dropComment (w ++ ' ' :: o) = w ++ ' ' :: o := by
    refine dropComment_eq_self fun c hc => ?_
    obtain hc | hc := List.mem_append.mp hc
    · exact (hw c hc).2.2
    · obtain rfl | hc := List.mem_cons.mp hc
      · decide
      · exact (ho c hc).2.2
  have hlast : wordsFrom o [] = [o] := by
    have := wordsFrom_word ho [] []
    rw [List.append_nil, List.nil_append] at this
    rw [this, wordsFrom, if_neg ho0]
  have hwords : wordsFrom (w ++ ' ' :: o) [] = [w, o] := by
    rw [wordsFrom_word hw, List.nil_append, wordsFrom, if_pos (.inl rfl), if_neg hw0, hlast]
  simp [parseLine, hcomment, hwords]

/-! ## Decimal numerals -/

/-- One of the ten characters that write a decimal digit. -/
def IsDecimal (c : Char) : Prop := ∃ d, d < 10 ∧ c = decimalDigit d

/-- What the ten decimal digits are as characters: each has its value, and none is a letter, a blank or `;`. -/
theorem decimalDigit_table :
    ∀ d < 10, digitValue 10 (decimalDigit d) = some d ∧
      (decimalDigit d ≠ ' ' ∧ decimalDigit d ≠ '\t' ∧ decimalDigit d ≠ ';') ∧
      decimalDigit d ≠ 'x' ∧ decimalDigit d ≠ 'b' := by
  decide

theorem IsDecimal.wordChar {c : Char} (h : IsDecimal c) : WordChar c := by
  obtain ⟨d, hd, rfl⟩ := h
  exact (decimalDigit_table d hd).2.1

theorem decimalDigit_mod (n : Nat) : decimalDigit n = decimalDigit (n % 10) := by
  rw [decimalDigit, decimalDigit, Nat.mod_mod]

theorem isDecimal_decimalDigit (n : Nat) : IsDecimal (decimalDigit n) :=
  ⟨n % 10, Nat.mod_lt _ (by decide), decimalDigit_mod n⟩

theorem digitValue_decimalDigit (n : Nat) : digitValue 10 (decimalDigit n) = some (n % 10) := by
  rw [decimalDigit_mod]
  exact (decimalDigit_table _ (Nat.mod_lt _ (by decide))).1

theorem isDecimal_of_mem_decimal {fuel n : Nat} {c : Char} (h : c ∈ decimal fuel n) : IsDecimal c := by
  induction fuel generalizing n with
  | zero => simp [decimal] at h
  | succ fuel ih =>
    have hdigit : c ∈ [decimalDigit n] → IsDecimal c := fun hc => List.mem_singleton.mp hc ▸ isDecimal_decimalDigit n
    unfold decimal at h
    split at h
    · exact hdigit h
    · exact (List.mem_append.mp h).elim ih hdigit

theorem decimal_ne_nil (fuel n : Nat) : decimal (fuel + 1) n ≠ [] := by
  unfold decimal
  split <;> simp

/-- One more digit at the end of a numeral. -/
theorem digitsFrom_concat {base : Nat} {cs : List Char} {c : Char} {acc n v : Nat} (h : digitsFrom base cs acc = some n)
    (hc : digitValue base c = some v) : digitsFrom base (cs ++ [c]) acc = some (n * base + v) := by
  induction cs generalizing acc with
  | nil =>
    obtain rfl : acc = n := Option.some.inj h
    simp [digitsFrom, hc]
  | cons d cs ih =>
    rw [digitsFrom] at h
    rw [List.cons_append, digitsFrom]
    cases hd : digitValue base d with
    | none => simp [hd] at h
    | some w =>
      simp only [hd] at h ⊢
      exact ih h

/-- Reading the digits of a number gives it back, where there are enough of them. -/
theorem digitsFrom_decimal {fuel n : Nat} (h : n < 10 ^ fuel) : digitsFrom 10 (decimal fuel n) 0 = some n := by
  induction fuel generalizing n with
  | zero =>
    obtain rfl : n = 0 := by simpa using h
    rfl
  | succ fuel ih =>
    have hlast : n / 10 * 10 + n % 10 = n := Nat.div_add_mod' n 10
    unfold decimal
    split
    case isTrue hlt =>
      have hone := digitsFrom_concat (base := 10) (cs := []) (acc := 0) rfl (digitValue_decimalDigit n)
      rwa [Nat.mod_eq_of_lt hlt, Nat.zero_mul, Nat.zero_add] at hone
    case isFalse =>
      rw [Nat.pow_succ] at h
      have := digitsFrom_concat (ih (n := n / 10) (by omega)) (digitValue_decimalDigit n)
      rwa [hlast] at this

/-- A numeral of decimal digits does not begin with `0x` or `0b`. -/
theorem numeral_of_decimals {cs : List Char} (h : ∀ c ∈ cs, IsDecimal c) : numeral cs = numeralIn 10 cs := by
  unfold numeral
  split
  case h_1 =>
    obtain ⟨d, hd, hx⟩ := h 'x' (by simp)
    exact absurd hx.symm (decimalDigit_table d hd).2.2.1
  case h_2 =>
    obtain ⟨d, hd, hb⟩ := h 'b' (by simp)
    exact absurd hb.symm (decimalDigit_table d hd).2.2.2
  case h_3 => rfl

theorem numeral_decimal {fuel n : Nat} (h : n < 10 ^ (fuel + 1)) : numeral (decimal (fuel + 1) n) = some n := by
  rw [numeral_of_decimals fun c => isDecimal_of_mem_decimal, numeralIn, if_neg (decimal_ne_nil fuel n)]
  exact digitsFrom_decimal h

/-! ## The text of events -/

/-- The decimal operand of SETPW reads back (R51, R54). -/
theorem microsOf_decimal (us : Micros) : microsOf (decimal 5 us.toNat) = some us := by
  have hlt : us.toNat < 65536 := us.isLt
  simp [microsOf, numeral_decimal (fuel := 4) (n := us.toNat) (by omega), hlt]

theorem wordChar_txtSetpw : ∀ c ∈ txtSetpw, WordChar c := by
  simp [txtSetpw, WordChar]

theorem lineOfPair_setpw {o : List Char} {us : Micros} (h : microsOf o = some us) :
    lineOfPair txtSetpw o = some (.event (.setpw us)) := by
  simp [lineOfPair, h]

theorem parseLine_printEvent (i : Instr) : parseLine (printEvent i) = some (.event i) := by
  cases i with
  | reset => decide
  | configure => decide
  | setpw us =>
    calc parseLine (txtSetpw ++ ' ' :: decimal 5 us.toNat)
      _ = lineOfPair txtSetpw (decimal 5 us.toNat) :=
          parseLine_pair wordChar_txtSetpw (fun c hc => (isDecimal_of_mem_decimal hc).wordChar) (by decide)
            (decimal_ne_nil 4 _)
      _ = some (.event (.setpw us)) := lineOfPair_setpw (microsOf_decimal us)
  | tick => decide
  | cycle v =>
    revert v
    decide

theorem assemble_cons (p : Params) {l : List Char} {ls : List (List Char)} {x : Line} {es : List Instr}
    (hl : parseLine l = some x) (hls : assemble p ls = some es) :
    assemble p (l :: ls) = some (lineEvents p x ++ es) := by
  simp [assemble, hl, hls]

/-- Settles O50: each line reads as its event, and the lines of a text are read in order. -/
theorem textOfEventsReadsBack : Obligations.TextOfEventsReadsBack := by
  refine ⟨parseLine_printEvent, fun p es => ?_⟩
  induction es with
  | nil => rfl
  | cons i es ih => exact assemble_cons p (parseLine_printEvent i) ih

end Sys2Proof.Machine
end

section
/-!
PROOFS. Infinite runs: invariants, liveness under fairness, and the nominal schedule (spec 42_system_and_boundary.md R105,
R106; 10_state.md R19).
-/

namespace Sys2Proof.Machine

/-! ## Every state of a run -/

/-- The state at a place of a schedule is the one after the run of its events up to there (R106). -/
theorem stateAt_eq_runEvents (p : Params) (sched : Schedule) (s : State) (n : Nat) :
    stateAt p sched s n = runEvents p (prefixOf sched n) s := by
  induction n with
  | zero => rfl
  | succ n ih =>
    rw [prefixOf_succ, runEvents_append, ← ih]
    rfl

theorem inv_stateAt {p : Params} (hp : p.Valid) (sched : Schedule) {s : State} {n m : Nat} (hnm : n ≤ m)
    (h : Inv p (stateAt p sched s n)) : Inv p (stateAt p sched s m) :=
  stateAt_induct (Inv p) (fun _ => True) (fun i _ _ => inv_applyEvent hp i) hnm (fun _ _ _ => trivial) h

/-- After its first RESET a run depends on the state before it by the phase and the waiting inputs only (log 6, log 4). -/
theorem stateAt_after_reset (p : Params) {sched : Schedule} (hrun : IsInfiniteRun sched) (s : State) (n : Nat) :
    stateAt p sched s (n + 1) =
      setInputs s.inputs (setPre s.pre (stateAt p sched (State.resetWith p) (n + 1))) := by
  induction n with
  | zero =>
    show applyEvent p (sched 0) s = setInputs s.inputs (setPre s.pre (applyEvent p (sched 0) (State.resetWith p)))
    rw [hrun]
    rfl
  | succ n ih => rw [stateAt_succ, ih, applyEvent_setInputs, applyEvent_setPre, ← stateAt_succ]

/-- Settles O55: the RESET gives the invariants, and every later event keeps them. -/
theorem everyRunMeetsTheInvariants : Obligations.EveryRunMeetsTheInvariants := by
  intro p sched s n hp hpre hrun
  have hfirst : Inv p (stateAt p sched s 1) := by
    show Inv p (applyEvent p (sched 0) s)
    rw [hrun]
    exact inv_resetEvent hp hpre
  exact ⟨inv_stateAt hp sched (Nat.le_add_left 1 n) hfirst, stateAt_eq_runEvents p sched s (n + 1),
    stateAt_after_reset p hrun s n⟩

/-! ## No hold lasts for ever -/

/-- READY with neutral and "ready" commanded (D15). -/
def AtRest (p : Params) (s : State) : Prop := s.st = .ready ∧ s.ind = false ∧ s.cmpShadow.toNat = p.neutralCounts

theorem atRest_resetEvent {p : Params} (hp : p.Valid) (s : State) : AtRest p (resetEvent p s) :=
  ⟨rfl, rfl, Params.neutralCounts_toNat hp⟩

theorem atRest_cycleEvent {p : Params} (hp : p.Valid) {v : SensorVector} {s : State} (h : (cycleEvent p v s).st = .ready) :
    AtRest p (cycleEvent p v s) := by
  obtain ⟨hind, hshadow⟩ := cycleEvent_outputs_of_ready h
  refine ⟨h, hind, ?_⟩
  rw [hshadow, Params.clampc_toNat hp, Params.clampc_conv_neutralUs hp]

/-- A bound on the control cycles up to the next READY: the milliseconds left of a hold, and one more than a whole hold in
READY, where a detection may begin one. -/
def holdLeft (p : Params) (c : Controller) : Nat :=
  match c.st with
  | .ready => p.holdMs + 1
  | .active => remaining p c

theorem holdLeft_of_ready (p : Params) {c : Controller} (h : c.st = .ready) : holdLeft p c = p.holdMs + 1 := by
  simp [holdLeft, h]

theorem holdLeft_of_active (p : Params) {c : Controller} (h : c.st = .active) :
    holdLeft p c = p.holdMs - c.elapsed.toNat := by
  simp [holdLeft, remaining, h]

/-- A control cycle ends in READY or comes nearer to it. -/
theorem transition_ready_or_nearer {p : Params} (hp : p.Valid) (v : SensorVector) (c : Controller) :
    (transition p v c).st = .ready ∨ holdLeft p (transition p v c) < holdLeft p c := by
  have hcyc := Params.one_le_cycleMs hp
  obtain ⟨d, hst, -, e⟩ | ⟨-, -, e⟩ | ⟨hst, hlt, e⟩ | ⟨-, -, e⟩ := transition_cases p v c <;> rw [e]
  · right
    rw [holdLeft_of_active p rfl, holdLeft_of_ready p hst]
    exact Nat.lt_succ_of_le (Nat.sub_le _ _)
  · exact .inl rfl
  · right
    rw [holdLeft_of_active p rfl, holdLeft_of_active p hst, elapsed_toNat_of_lt hp hlt]
    omega
  · exact .inl rfl

/-- Under fairness a RESET or a CYCLE comes, and finds the controller as it is now. -/
theorem exists_controllerEvent (p : Params) {sched : Schedule} (hfair : Fair sched) (s : State) (n : Nat) :
    ∃ m, n ≤ m ∧ (sched m = .reset ∨ ∃ v, sched m = .cycle v) ∧
      controllerOf (stateAt p sched s m) = controllerOf (stateAt p sched s n) := by
  obtain ⟨m', v', hm', hv'⟩ := hfair.2 n
  obtain ⟨m, hnm, hm, hbefore⟩ := exists_first (Q := fun m => sched m = .reset ∨ ∃ v, sched m = .cycle v)
    ⟨m', hm', .inr ⟨v', hv'⟩⟩
  refine ⟨m, hnm, hm, ?_⟩
  refine stateAt_induct (fun t => controllerOf t = controllerOf (stateAt p sched s n))
    (fun i => ¬ (i = .reset ∨ ∃ v, i = .cycle v)) (fun i t hi ht => ?_) hnm hbefore rfl
  obtain ⟨hr, hc⟩ := not_or.mp hi
  exact (congrArg ControllerUnit.ctl (unitOf_applyEvent_other p hr (fun v e => hc ⟨v, e⟩) t)).trans ht

/-- By induction on the time left: each CYCLE ends the hold or shortens it, and a RESET ends it. -/
theorem exists_atRest {p : Params} (hp : p.Valid) {sched : Schedule} (hfair : Fair sched) (s : State) (n : Nat) :
    ∃ m, n < m ∧ AtRest p (stateAt p sched s m) := by
  induction hleft : holdLeft p (controllerOf (stateAt p sched s n)) using Nat.strong_induction_on generalizing n with
  | _ left ih =>
    obtain ⟨m, hnm, hm, hctl⟩ := exists_controllerEvent p hfair s n
    obtain hr | ⟨v, hv⟩ := hm
    · refine ⟨m + 1, Nat.lt_succ_of_le hnm, ?_⟩
      rw [stateAt_succ, hr]
      exact atRest_resetEvent hp _
    · have hstep : stateAt p sched s (m + 1) = cycleEvent p v (stateAt p sched s m) := by
        rw [stateAt_succ, hv, applyEvent]
      obtain hready | hnearer := transition_ready_or_nearer hp v (controllerOf (stateAt p sched s m))
      · exact ⟨m + 1, Nat.lt_succ_of_le hnm, hstep ▸ atRest_cycleEvent hp hready⟩
      · rw [hctl, hleft] at hnearer
        obtain ⟨k, hk, hrest⟩ := ih _ hnearer (m + 1) (by rw [hstep, cycleEvent_controller, hctl])
        exact ⟨k, by omega, hrest⟩

/-- Settles O56. -/
theorem fairRunReturnsToReady : Obligations.FairRunReturnsToReady :=
  fun _ _ s n hp hfair => exists_atRest hp hfair s n

/-! ## A running timer starts frames for ever -/

section Frames

variable {p : Params} {sched : Schedule} (hfair : Fair sched) (hnoReset : ∀ k, sched k ≠ .reset)
include hnoReset

theorem run_stateAt {s : State} (hr : s.run = true) (n : Nat) : (stateAt p sched s n).run = true := by
  refine stateAt_induct (fun t => t.run = true) (fun i => i ≠ .reset) (fun i t hi ht => ?_) (Nat.zero_le n)
    (fun k _ _ => hnoReset k) hr
  by_cases htick : i = .tick
  · exact htick ▸ (tickEvent_run p t).trans ht
  · exact (applyEvent_keeps_frame p ht hi htick).2.2

include hfair

/-- Under fairness and without RESET a TICK comes, and finds the counter as it is now. -/
theorem exists_tick {s : State} (hr : s.run = true) (n : Nat) :
    ∃ m, n ≤ m ∧ sched m = .tick ∧ (stateAt p sched s m).cnt = (stateAt p sched s n).cnt := by
  obtain ⟨m, hnm, hm, hbefore⟩ := exists_first (hfair.1 n)
  have hkeeps := stateAt_induct (p := p) (sched := sched) (s := s)
    (fun t => t.run = true ∧ t.cnt = (stateAt p sched s n).cnt) (fun i => i ≠ .reset ∧ i ≠ .tick)
    (fun i t hi ht => by
      obtain ⟨hcnt, -, hrun⟩ := applyEvent_keeps_frame p ht.1 hi.1 hi.2
      exact ⟨hrun, hcnt.trans ht.2⟩)
    hnm (fun k hk hlt => ⟨hnoReset k, hbefore k hk hlt⟩) ⟨run_stateAt hnoReset hr n, rfl⟩
  exact ⟨m, hnm, hm, hkeeps.2⟩

/-- By induction on the counts left in the frame: a TICK comes at each of them. -/
theorem exists_tick_atTop (hp : p.Valid) {s : State} (hinv : Inv p s) (hr : s.run = true) (n : Nat) :
    ∃ m, n ≤ m ∧ sched m = .tick ∧ (stateAt p sched s m).cnt.toNat = p.top := by
  induction hleft : p.top - (stateAt p sched s n).cnt.toNat generalizing n with
  | zero =>
    obtain ⟨m, hnm, hm, hcnt⟩ := exists_tick hfair hnoReset hr n (p := p)
    obtain ⟨hle, -⟩ := inv_stateAt hp sched (Nat.zero_le n) hinv
    exact ⟨m, hnm, hm, by rw [hcnt]; exact le_antisymm hle (Nat.sub_eq_zero_iff_le.mp hleft)⟩
  | succ left ih =>
    obtain ⟨m, hnm, hm, hcnt⟩ := exists_tick hfair hnoReset hr n (p := p)
    have hlt : (stateAt p sched s m).cnt.toNat < p.top := by rw [hcnt]; omega
    have hstep : stateAt p sched s (m + 1) = advanceCount (stateAt p sched s m) := by
      rw [stateAt_succ, hm]
      exact tickEvent_inside p (run_stateAt hnoReset hr m) hlt.ne
    obtain ⟨k, hk, htop⟩ := ih (m + 1) (by rw [hstep, advanceCount_cnt_toNat hp hlt, hcnt]; omega)
    exact ⟨k, by omega, htop⟩

end Frames

/-- Settles O57: at the last count of the frame the TICK starts the next one, whose pulse is on (V6). -/
theorem fairRunStartsFramesForEver : Obligations.FairRunStartsFramesForEver := by
  intro p sched s n hp hpol hfair hnoReset hinv hr
  obtain ⟨m, hnm, hm, htop⟩ := exists_tick_atTop hfair hnoReset hp hinv hr n
  have hrun := run_stateAt (p := p) hnoReset hr m
  have hstep : stateAt p sched s (m + 1) = startFrame (stateAt p sched s m) := by
    rw [stateAt_succ, hm]
    exact tickEvent_atTop p hrun htop
  obtain ⟨-, ⟨hshadow, -⟩, -⟩ := inv_stateAt hp sched (Nat.zero_le m) hinv
  refine ⟨m, hnm, hm, htop, ?_⟩
  rw [hstep]
  exact ⟨rfl, rfl, pwm_frameStart hp hpol hrun rfl hshadow⟩

/-! ## The nominal schedule -/

theorem prefixOf_add (sched : Schedule) (n k : Nat) :
    prefixOf sched (n + k) = prefixOf sched n ++ (List.range k).map (fun j => sched (n + j)) := by
  simp [prefixOf, List.range_add, Function.comp_def]

/-- A stretch of a schedule that holds one event only. -/
theorem map_range_eq_replicate {sched : Schedule} {n k : Nat} {i : Instr} (h : ∀ j < k, sched (n + j) = i) :
    (List.range k).map (fun j => sched (n + j)) = List.replicate k i := by
  rw [List.eq_replicate_iff]
  exact ⟨by simp, by simpa using h⟩

section Nominal

variable (p : Params) (phase : Nat) (senses : Nat → SensorVector)

/-- Before its first CYCLE the nominal schedule ticks. -/
theorem nominalSchedule_phase {j : Nat} (h : j < phase) : nominalSchedule p phase senses (2 + j) = .tick := by
  rw [Nat.add_comm]
  exact if_pos h

/-- The first place of period `n` is its CYCLE. -/
theorem nominalSchedule_cycle (n : Nat) :
    nominalSchedule p phase senses (2 + phase + n * (nominalTicks p + 1)) = .cycle (senses n) := by
  have hplace : 2 + phase + n * (nominalTicks p + 1) = phase + n * (nominalTicks p + 1) + 2 := by omega
  rw [hplace, nominalSchedule, nominalEvent, if_neg (by omega), Nat.add_sub_cancel_left, if_pos (Nat.mul_mod_left ..),
    Nat.mul_div_cancel _ (Nat.succ_pos _)]

/-- The other places of period `n` are its ticks. -/
theorem nominalSchedule_tick (n : Nat) {j : Nat} (h : j < nominalTicks p) :
    nominalSchedule p phase senses (2 + phase + n * (nominalTicks p + 1) + 1 + j) = .tick := by
  have hplace : 2 + phase + n * (nominalTicks p + 1) + 1 + j = phase + (1 + j + n * (nominalTicks p + 1)) + 2 := by omega
  have hmod : (1 + j + n * (nominalTicks p + 1)) % (nominalTicks p + 1) ≠ 0 := by
    rw [Nat.add_mul_mod_self_right, Nat.mod_eq_of_lt (by omega)]
    omega
  rw [hplace, nominalSchedule, nominalEvent, if_neg (by omega), Nat.add_sub_cancel_left, if_neg hmod]

theorem nominalSchedule_fair (h : 1 ≤ nominalTicks p) : Fair (nominalSchedule p phase senses) := by
  have hle (n : Nat) : n ≤ n * (nominalTicks p + 1) := Nat.le_mul_of_pos_right n (Nat.succ_pos _)
  refine ⟨fun n => ⟨_, ?_, nominalSchedule_tick p phase senses n h⟩,
    fun n => ⟨_, senses n, ?_, nominalSchedule_cycle p phase senses n⟩⟩ <;>
  · have := hle n
    omega

/-- One period of the schedule, from its CYCLE to its last tick. -/
theorem nominalSchedule_period (n : Nat) :
    (List.range (nominalTicks p + 1)).map
        (fun j => nominalSchedule p phase senses (2 + phase + n * (nominalTicks p + 1) + j)) =
      nominalPeriod p (senses n) := by
  rw [List.range_succ_eq_map, List.map_cons, List.map_map, nominalPeriod, Nat.add_zero, nominalSchedule_cycle,
    ← map_range_eq_replicate fun j => nominalSchedule_tick p phase senses n]
  congr 1
  refine List.map_congr_left fun j _ => congrArg (nominalSchedule p phase senses) ?_
  simp only [Nat.succ_eq_add_one]
  omega

/-- The schedule up to the end of `n` whole periods is the finite piece of the nominal schedule (R105, R126). -/
theorem prefixOf_nominalSchedule (n : Nat) :
    prefixOf (nominalSchedule p phase senses) (2 + phase + n * (nominalTicks p + 1)) =
      nominalRun p phase ((List.range n).map senses) := by
  induction n with
  | zero =>
    rw [Nat.zero_mul, Nat.add_zero, prefixOf_add, map_range_eq_replicate fun j => nominalSchedule_phase p phase senses]
    simp [nominalRun, prefixOf, List.range_succ, nominalSchedule]
  | succ n ih =>
    rw [Nat.succ_mul, ← Nat.add_assoc, prefixOf_add, ih, nominalSchedule_period]
    simp [nominalRun, List.range_succ]

end Nominal

/-- Settles O58. -/
theorem nominalScheduleIsAFairRun : Obligations.NominalScheduleIsAFairRun :=
  ⟨fun p phase senses h => ⟨rfl, nominalSchedule_fair p phase senses h⟩, prefixOf_nominalSchedule, by decide⟩

end Sys2Proof.Machine
end
